-- ==== Sys2Proof/Word.lean ====
section
/-! DEFINITION. The word types of the block: bytes and CPU addresses (spec/00_scope.md R6, R10). -/

namespace Sys2Proof

/-- A memory cell, an 8-bit register, an opcode or operand byte (R6). -/
abbrev Byte := BitVec 8

/-- A 16-bit CPU address, and the width of `PC` (R6). -/
abbrev Addr := BitVec 16

end Sys2Proof
end

