-- ==== Sys2Proof/Machine/Bits.lean ====
section
/-! DEFINITION. Byte order, extension and page helpers (spec/00_scope.md R10, R11; spec/20_memory.md R90). -/

namespace Sys2Proof

/-- `w[7:0]`. -/
def loByte (w : Addr) : Byte := w.setWidth 8

/-- `w[15:8]`, the page of an address. -/
def hiByte (w : Addr) : Byte := w.extractLsb' 8 8

/-- `hi ++ lo`: little-endian pairs are assembled from their two bytes (R90). -/
def word (hi lo : Byte) : Addr := hi ++ lo

/-- `zext_16(b)` (R11). -/
def zext16 (b : Byte) : Addr := b.setWidth 16

/-- Two addresses lie on different pages: their high bytes differ (00_scope.md glossary, "page cross"). -/
def pageDiffers (a b : Addr) : Bool := hiByte a != hiByte b

end Sys2Proof
end

