-- ==== Sys2Proof/Machine/Memory.lean ====
section
/-! DEFINITION. One memory of the block as a canonical list of cells: addresses strictly rising, no entry
equal to what an unlisted address reads as. -/

namespace Sys2Proof

/-- A memory of `w`-bit cells. `Memory 8` is a list of `Host.Cell`. -/
abbrev Memory (w : Nat) := List (Nat × BitVec w)

/-- What an unlisted address reads as. The spec's simulation default for every memory (spec/00_scope.md R9,
spec/10_state.md R51). DESIGN CHOICE, unsafe where the spec calls the contents a launch input: log entry 3. -/
def Memory.unlisted (w : Nat) : BitVec w := 0

/-- The cell at `a`. -/
def Memory.read {w : Nat} : Memory w → Nat → BitVec w
  | [], _ => Memory.unlisted w
  | (k, v) :: rest, a => if a = k then v else Memory.read rest a

/-- Put a cell in front of cells at higher addresses; a cell equal to the unlisted value is not listed. -/
def Memory.consCell {w : Nat} (a : Nat) (v : BitVec w) (rest : Memory w) : Memory w :=
  if v = Memory.unlisted w then rest else (a, v) :: rest

/-- Store `v` at `a`, keeping the canonical form. -/
def Memory.write {w : Nat} : Memory w → Nat → BitVec w → Memory w
  | [], a, v => Memory.consCell a v []
  | (k, x) :: rest, a, v =>
    if a < k then Memory.consCell a v ((k, x) :: rest)
    else if a = k then Memory.consCell a v rest
    else (k, x) :: Memory.write rest a v

/-- The canonical form, for cells at addresses not below `lo`. -/
def Memory.wfFrom {w : Nat} : Nat → Memory w → Bool
  | _, [] => true
  | lo, (k, v) :: rest => decide (lo ≤ k) && decide (v ≠ Memory.unlisted w) && Memory.wfFrom (k + 1) rest

/-- The canonical form of a memory. -/
def Memory.wf {w : Nat} (m : Memory w) : Bool := Memory.wfFrom 0 m

/-- Every listed address is below `n`: the memory has (at most) `n` cells. -/
def Memory.boundedBy {w : Nat} (n : Nat) (m : Memory w) : Bool := m.all fun c => decide (c.1 < n)

/-- Canonical and of size `n`. -/
def Memory.fits {w : Nat} (n : Nat) (m : Memory w) : Bool := m.wf && m.boundedBy n

end Sys2Proof
end

