-- ==== Sys2Proof/Config.lean ====
section
/-! DEFINITION. The parameters of the block (spec/00_scope.md R9) and the free values the spec leaves open
(spec/43_arithmetic_compare.md R213). Log entry 1: the configuration is carried in State, and no step changes it. -/

namespace Sys2Proof

/-- `MIRRORING` (R9; spec/20_memory.md R84). Four-screen is refused (R88): it has no value here. -/
inductive Mirroring where
  | horizontal | vertical
deriving DecidableEq, Repr

/-- `PRG_BANKS`: 1 or 2 banks of 16 KB (R9). -/
inductive PrgBanks where
  | one | two
deriving DecidableEq, Repr

/-- The size of `PRG_ROM` in bytes (R9). -/
def PrgBanks.size : PrgBanks → Nat
  | .one => 0x4000
  | .two => 0x8000

/-- `CPU_DEBT_BIAS`: 0 or 1 (R9, D3). -/
inductive DebtBias where
  | zero | one
deriving DecidableEq, Repr

/-- The number subtracted from what an instruction charges. -/
def DebtBias.amount : DebtBias → Nat
  | .zero => 0
  | .one => 1

/-- The bus the CPU is attached to (R8): the block's own bus, or the flat 64 KB RAM of the stand-alone CPU
(spec/70_reset_and_hazards.md R459). -/
inductive BusKind where
  | system | flat
deriving DecidableEq, Repr

/-- One entry of `SYSTEM_PALETTE` (R9, D27). -/
structure Rgb where
  red : Byte
  green : Byte
  blue : Byte
deriving DecidableEq, Repr

/-- `POWERON_FLAGS`: the flags C, Z, D, V, N before the first reset (R9, D1). -/
structure PowerOnFlags where
  c : Bool
  z : Bool
  d : Bool
  v : Bool
  n : Bool
deriving DecidableEq, Repr

/-- The launch inputs `POWERON_*` (R9, D1, D2). `flatMem` is the image of the stand-alone CPU's RAM (R459). -/
structure PowerOn where
  a : Byte
  x : Byte
  y : Byte
  s : Byte
  flags : PowerOnFlags
  ram : Memory 8
  vram : Memory 8
  oam : Memory 8
  palette : Memory 8
  prgRam : Memory 8
  flatMem : Memory 8
deriving DecidableEq, Repr

/-- The parameters the model takes as arguments (R9). -/
structure Config where
  bus : BusKind
  prgRom : Memory 8
  prgBanks : PrgBanks
  hasPrgRam : Bool
  chr : Memory 8
  chrIsRam : Bool
  mirroring : Mirroring
  systemPalette : List Rgb
  decimalEnabled : Bool
  jmpIndirectPageWrap : Bool
  debtBias : DebtBias
  prerenderScrollUpdates : Bool
  powerOn : PowerOn
deriving DecidableEq, Repr

/-- The simulation defaults of the launch inputs (R9, R51): registers 0 but `S = 0xFD`, flags and memories 0.
DESIGN CHOICE (the spec gives no value D00 states), unsafe: log entries 2 and 3. -/
def PowerOn.simulationDefault : PowerOn where
  a := 0
  x := 0
  y := 0
  s := 0xFD
  flags := ⟨false, false, false, false, false⟩
  ram := []
  vram := []
  oam := []
  palette := []
  prgRam := []
  flatMem := []

/-- The defaults of R9. `PRG_ROM`, `PRG_BANKS`, `CHR`, `MIRRORING` and `SYSTEM_PALETTE` have none there:
an empty one-bank cartridge, horizontal mirroring and a black palette are a DESIGN CHOICE, unsafe: log entry 4. -/
def Config.default : Config where
  bus := .system
  prgRom := []
  prgBanks := .one
  hasPrgRam := true
  chr := []
  chrIsRam := false
  mirroring := .horizontal
  systemPalette := List.replicate 64 ⟨0, 0, 0⟩
  decimalEnabled := true
  jmpIndirectPageWrap := false
  debtBias := .zero
  prerenderScrollUpdates := true
  powerOn := PowerOn.simulationDefault

/-- The free bits: the `n`-th is the value of a flag the spec leaves "any value" (R213, D18). Log entry 5. -/
opaque Config.freeBit : Nat → Bool

/-- The free bytes: the `n`-th is the value of a result the spec leaves "any value" (R213, D18). Log entry 5. -/
opaque Config.freeByte : Nat → Byte

end Sys2Proof
end

