-- ==== Sys2Proof/Machine/State.lean ====
section
/-! DEFINITION. The state of the block (spec/10_state.md R20 to R51), the reasons a step can stop, one setter
for each field, and the state right after reset. -/

namespace Sys2Proof.Machine

/-- What `pending_interrupt` can hold besides `none` (R27). -/
inductive Interrupt where
  | nmi | irq
deriving DecidableEq, Repr

/-- The one synchronous exception of the block (spec/60_exceptions.md R410, R411). -/
inductive Fault where
  /-- Raised by the CPU's step when the opcode table has no row for the byte `op` fetched at `pc` (R410).
  It is RECORDED in `Cpu.fault`, where it makes the CPU inert while the PPU runs on; the machine's step still
  answers a next state, so no step ends in `Outcome.fault`. Safe: the state is the one R410 gives. -/
  | invalidInstruction (op : Byte) (pc : Addr)
deriving DecidableEq, Repr

/-- Why the model gives an instruction no meaning. -/
inductive Refusal where
  /-- An instruction without a meaning yet, raised by its arm of `exec` only. Safe: the run stops. No arm is left. -/
  | notModelled (mnemonic : String)
deriving DecidableEq, Repr

/-- The CPU (R20 to R28). -/
structure Cpu where
  /-- accumulator (R20) -/
  a : Byte
  /-- index X (R20) -/
  x : Byte
  /-- index Y (R20) -/
  y : Byte
  /-- stack pointer (R21) -/
  s : Byte
  /-- processor status (R23) -/
  p : Byte
  /-- program counter (R22) -/
  pc : Addr
  /-- the cycle debt (R26) -/
  cycles : Nat
  /-- `pending_interrupt` (R27) -/
  pending : Option Interrupt
  /-- `cpu_fault` (R28) -/
  fault : Option Fault
deriving DecidableEq, Repr

/-- The PPU (R30 to R46). -/
structure Ppu where
  /-- current VRAM address (R30) -/
  v : BitVec 15
  /-- temporary VRAM address (R30) -/
  t : BitVec 15
  /-- fine X (R31) -/
  x : BitVec 3
  /-- write toggle: false = the next write is the first (R31) -/
  w : Bool
  /-- PPUCTRL (R32) -/
  ctrl : Byte
  /-- PPUMASK (R33) -/
  mask : Byte
  /-- PPUSTATUS (R34) -/
  status : Byte
  /-- OAMADDR (R35) -/
  oamAddr : Byte
  /-- 0..261, the line the next tick processes (R36) -/
  scanline : Nat
  /-- 0..340, the dot the next tick processes (R36) -/
  dot : Nat
  /-- completed frames (R37) -/
  frame : Nat
  /-- toggled with each completed frame (R37) -/
  oddFrame : Bool
  /-- read buffer of $2007 (R38) -/
  bufferData : Byte
  /-- pattern shifter, low plane (R40) -/
  patLo : BitVec 16
  /-- pattern shifter, high plane (R40) -/
  patHi : BitVec 16
  /-- attribute shifter, low bit (R40) -/
  attrLo : BitVec 16
  /-- attribute shifter, high bit (R40) -/
  attrHi : BitVec 16
  /-- staged nametable byte (R41) -/
  nextTileId : Byte
  /-- staged palette selector, two significant bits (R41) -/
  nextTileAttr : Byte
  /-- staged pattern byte, low plane (R41) -/
  nextTileLsb : Byte
  /-- staged pattern byte, high plane (R41) -/
  nextTileMsb : Byte
  /-- 2048 bytes of nametable storage (R42) -/
  vram : Memory 8
  /-- 256 bytes of sprite table (R43) -/
  oam : Memory 8
  /-- 32 bytes of palette (R44) -/
  palette : Memory 8
  /-- 61440 colour indices (R46) -/
  framebuffer : Memory 6
deriving DecidableEq, Repr

/-- The whole block. `cfg` is constant (log entry 1); `freeCount` is the model's own (log entry 5). -/
structure State where
  /-- the parameters of the block, changed by no step (00_scope.md R9) -/
  cfg : Config
  /-- R20 to R28 -/
  cpu : Cpu
  /-- R30 to R46 -/
  ppu : Ppu
  /-- 2048 bytes of internal RAM (R47) -/
  ram : Memory 8
  /-- 8192 bytes of cartridge PRG-RAM (R49) -/
  prgRam : Memory 8
  /-- 8192 bytes of CHR-RAM, meaningful when `CHR_IS_RAM` (R49) -/
  chrRam : Memory 8
  /-- the 64 KB RAM of the stand-alone CPU (70_reset_and_hazards.md R459) -/
  flatMem : Memory 8
  /-- bus ticks so far (R48) -/
  tickCount : Nat
  /-- free values drawn so far; the model's own field -/
  freeCount : Nat
deriving DecidableEq, Repr

/-- What one step or one meaning answers. -/
abbrev Result := Host.Outcome State Fault Refusal

/-! ### One setter for each field a rule writes -/

def State.setCpu (c : Cpu) (s : State) : State := { s with cpu := c }
def State.setA (b : Byte) (s : State) : State := { s with cpu := { s.cpu with a := b } }
def State.setX (b : Byte) (s : State) : State := { s with cpu := { s.cpu with x := b } }
def State.setY (b : Byte) (s : State) : State := { s with cpu := { s.cpu with y := b } }
def State.setS (b : Byte) (s : State) : State := { s with cpu := { s.cpu with s := b } }
def State.setP (b : Byte) (s : State) : State := { s with cpu := { s.cpu with p := b } }
def State.setPc (a : Addr) (s : State) : State := { s with cpu := { s.cpu with pc := a } }
def State.setCycles (n : Nat) (s : State) : State := { s with cpu := { s.cpu with cycles := n } }
def State.setPending (i : Option Interrupt) (s : State) : State := { s with cpu := { s.cpu with pending := i } }
def State.setFault (f : Option Fault) (s : State) : State := { s with cpu := { s.cpu with fault := f } }
def State.setPpu (u : Ppu) (s : State) : State := { s with ppu := u }
def State.setRam (m : Memory 8) (s : State) : State := { s with ram := m }
def State.setPrgRam (m : Memory 8) (s : State) : State := { s with prgRam := m }
def State.setChrRam (m : Memory 8) (s : State) : State := { s with chrRam := m }
def State.setFlatMem (m : Memory 8) (s : State) : State := { s with flatMem := m }
def State.setTickCount (n : Nat) (s : State) : State := { s with tickCount := n }
def State.setFreeCount (n : Nat) (s : State) : State := { s with freeCount := n }

/-! ### Reset -/

/-- The CPU right after power-on and reset (R51): `P.I = P.U = 1`, no debt, nothing pending, no fault; `PC` is
the reset vector, 0 in the empty cartridge. A, X, Y, S and the other flags: DESIGN CHOICE, log entry 2. -/
def Cpu.reset : Cpu where
  a := 0
  x := 0
  y := 0
  s := 0xFD
  p := 0x24
  pc := 0
  cycles := 0
  pending := none
  fault := none

/-- The PPU right after power-on and reset (R51): every field 0; memory contents by log entry 3. -/
def Ppu.reset : Ppu where
  v := 0
  t := 0
  x := 0
  w := false
  ctrl := 0
  mask := 0
  status := 0
  oamAddr := 0
  scanline := 0
  dot := 0
  frame := 0
  oddFrame := false
  bufferData := 0
  patLo := 0
  patHi := 0
  attrLo := 0
  attrHi := 0
  nextTileId := 0
  nextTileAttr := 0
  nextTileLsb := 0
  nextTileMsb := 0
  vram := []
  oam := []
  palette := []
  framebuffer := []

/-- The block right after power-on (70_reset_and_hazards.md R440) with the default configuration; it is
`powerOn Config.default` (`reset_eq_powerOn`, Laws/Reset.lean). -/
def State.reset : State where
  cfg := Config.default
  cpu := Cpu.reset
  ppu := Ppu.reset
  ram := []
  prgRam := []
  chrRam := []
  flatMem := []
  tickCount := 0
  freeCount := 0

end Sys2Proof.Machine
end

