-- ==== Sys2Proof/Machine/Flags.lean ====
section
/-! DEFINITION. The status register and every flag computation (spec/10_state.md R23 to R25, spec/00_scope.md R15,
spec/43_arithmetic_compare.md R210 to R215, spec/44_logic_shift.md R243 to R248). -/

namespace Sys2Proof.Machine

/-- The flags of `P` (R23). -/
inductive Flag where
  | c | z | i | d | b | u | v | n
deriving DecidableEq, Repr

/-- The bit position of a flag (R23). -/
def flagBit : Flag → Nat
  | .c => 0
  | .z => 1
  | .i => 2
  | .d => 3
  | .b => 4
  | .u => 5
  | .v => 6
  | .n => 7

/-- One flag of a status byte. -/
def flagOf (f : Flag) (p : Byte) : Bool := p.getLsbD (flagBit f)

/-- A status byte with one flag replaced. -/
def putFlag (f : Flag) (b : Bool) (p : Byte) : Byte :=
  (p &&& ~~~(1#8 <<< flagBit f)) ||| ((BitVec.ofBool b).setWidth 8 <<< flagBit f)

/-- `SetNZ(r)` on a status byte (R15). -/
def putNZ (r : Byte) (p : Byte) : Byte := putFlag .z (r == 0) (putFlag .n r.msb p)

/-- One flag of the status register. -/
def State.flag (f : Flag) (s : State) : Bool := flagOf f s.cpu.p

/-- The status register with one flag replaced. -/
def State.setFlag (f : Flag) (b : Bool) (s : State) : State := s.setP (putFlag f b s.cpu.p)

/-- `SetNZ(r)` (R15). -/
def State.setNZ (r : Byte) (s : State) : State := s.setP (putNZ r s.cpu.p)

/-! ### Images of `P` on the stack -/

/-- The image PHP and BRK push: `P | 0x10` (R204, R282). -/
def imageWithB (p : Byte) : Byte := p ||| 0x10

/-- The image an interrupt entry pushes: `(P & 0xEF) | 0x20` (60_exceptions.md R415, D15). -/
def imageNoB (p : Byte) : Byte := (p &&& 0xEF) ||| 0x20

/-- The status PLP and RTI take from a pulled byte: `(b & 0xEF) | 0x20` (R206, R283). -/
def pulledStatus (b : Byte) : Byte := (b &&& 0xEF) ||| 0x20

/-! ### Binary addition (R210) -/

/-- `A + m + P.C` as a natural number, 0..511 (R210). -/
def exactSum (a m : Byte) (c : Bool) : Nat := a.toNat + m.toNat + c.toNat

/-- The result of a binary add: `sum mod 256` (R210). -/
def sumByte (a m : Byte) (c : Bool) : Byte := BitVec.ofNat 8 (exactSum a m c)

/-- `sum[8]` (R210). -/
def sumCarry (a m : Byte) (c : Bool) : Bool := decide (256 ≤ exactSum a m c)

/-- `((A ^ res) & (m ^ res) & 0x80) != 0` (R210). -/
def sumOverflow (a m res : Byte) : Bool := ((a ^^^ res) &&& (m ^^^ res) &&& 0x80) != 0

/-- `AddBinary(m)` (R210). -/
def addBinary (m : Byte) (s : State) : State :=
  let res := sumByte s.cpu.a m (s.flag .c)
  (((s.setFlag .c (sumCarry s.cpu.a m (s.flag .c))).setFlag .v (sumOverflow s.cpu.a m res)).setA res).setNZ res

/-! ### Decimal arithmetic (R211, R213) -/

/-- `Dec(b)` (R211). -/
def decDigits (b : Byte) : Nat := 10 * (b.toNat / 16) + b.toNat % 16

/-- Both nibbles are at most 9 (R211). -/
def validBcd (b : Byte) : Bool := decide (b.toNat / 16 ≤ 9) && decide (b.toNat % 16 ≤ 9)

/-- `Enc(n)` (R211). -/
def encDigits (n : Nat) : Byte := BitVec.ofNat 8 (n / 10 * 16 + n % 10)

/-- The decimal sum `Dec(A) + Dec(m) + P.C` (R213). -/
def decimalSum (a m : Byte) (c : Bool) : Nat := decDigits a + decDigits m + c.toNat

/-- The decimal difference `Dec(A) - Dec(m) - (1 - P.C)`, which may be negative (R213). -/
def decimalDiff (a m : Byte) (c : Bool) : Int := (decDigits a : Int) - decDigits m - (1 - (c.toNat : Int))

/-- After decimal arithmetic on valid BCD: C, A, N and Z as computed, V any value (R213, D18; log entry 5). -/
def decimalResult (carry : Bool) (res : Byte) (s : State) : State :=
  ((((s.setFlag .c carry).setA res).setNZ res).setFlag .v (Config.freeBit s.freeCount)).setFreeCount (s.freeCount + 1)

/-- After decimal arithmetic on a byte that is not valid BCD: A, C, N, Z and V are each any value
(R213, D18; log entry 5). -/
def decimalOpen (s : State) : State :=
  let n := s.freeCount
  (((((s.setA (Config.freeByte n)).setFlag .c (Config.freeBit n)).setFlag .z (Config.freeBit (n + 1))).setFlag .n
    (Config.freeBit (n + 2))).setFlag .v (Config.freeBit (n + 3))).setFreeCount (n + 4)

/-- `AddDecimal(m)` (R213). -/
def addDecimal (m : Byte) (s : State) : State :=
  if validBcd s.cpu.a && validBcd m then
    let sum := decimalSum s.cpu.a m (s.flag .c)
    decimalResult (decide (99 < sum)) (encDigits (sum % 100)) s
  else decimalOpen s

/-- `SubDecimal(m)` (R213, D19). -/
def subDecimal (m : Byte) (s : State) : State :=
  if validBcd s.cpu.a && validBcd m then
    let d := decimalDiff s.cpu.a m (s.flag .c)
    decimalResult (decide (0 ≤ d)) (encDigits (d % 100).toNat) s
  else decimalOpen s

/-- ADC and SBC take the decimal helpers (R212, R214). -/
def decimalMode (s : State) : Bool := s.flag .d && s.cfg.decimalEnabled

/-- The operation of ADC (R212). -/
def adc (m : Byte) (s : State) : State := if decimalMode s then addDecimal m s else addBinary m s

/-- The operation of SBC (R214). -/
def sbc (m : Byte) (s : State) : State := if decimalMode s then subDecimal m s else addBinary (m ^^^ 0xFF) s

/-! ### Compare, logic, bit test -/

/-- The status after `Compare(r, m)` (R215). -/
def compareStatus (r m p : Byte) : Byte := putFlag .c (decide (m.toNat ≤ r.toNat)) (putNZ (r - m) p)

/-- CMP: `Compare(A, m)` (R216). -/
def compareA (m : Byte) (s : State) : State := s.setP (compareStatus s.cpu.a m s.cpu.p)

/-- CPX: `Compare(X, m)` (R217). -/
def compareX (m : Byte) (s : State) : State := s.setP (compareStatus s.cpu.x m s.cpu.p)

/-- CPY: `Compare(Y, m)` (R218). -/
def compareY (m : Byte) (s : State) : State := s.setP (compareStatus s.cpu.y m s.cpu.p)

/-- Put a result in A and set N and Z from it. -/
def loadA (r : Byte) (s : State) : State := (s.setA r).setNZ r

/-- Put a result in X and set N and Z from it. -/
def loadX (r : Byte) (s : State) : State := (s.setX r).setNZ r

/-- Put a result in Y and set N and Z from it. -/
def loadY (r : Byte) (s : State) : State := (s.setY r).setNZ r

/-- LAX: `A <- m; X <- m; SetNZ(m)` (46_undocumented.md R306). -/
def loadAX (m : Byte) (s : State) : State := ((s.setA m).setX m).setNZ m

/-- AND (R240). -/
def andA (m : Byte) (s : State) : State := loadA (s.cpu.a &&& m) s

/-- ORA (R241). -/
def oraA (m : Byte) (s : State) : State := loadA (s.cpu.a ||| m) s

/-- EOR (R242). -/
def eorA (m : Byte) (s : State) : State := loadA (s.cpu.a ^^^ m) s

/-- The status after BIT (R243). -/
def bitStatus (a m p : Byte) : Byte :=
  putFlag .v (m.getLsbD 6) (putFlag .n (m.getLsbD 7) (putFlag .z ((a &&& m) == 0) p))

/-- BIT (R243). -/
def bitTest (m : Byte) (s : State) : State := s.setP (bitStatus s.cpu.a m s.cpu.p)

/-! ### Shifts and rotates (R244 to R248): the result byte from the operand and the carry in,
then the flags from the operand and the result -/

/-- ASL's result: `(m << 1) mod 256` (R245). -/
def aslByte (_ : State) (m : Byte) : Byte := m <<< 1

/-- LSR's result: `m >> 1` (R246). -/
def lsrByte (_ : State) (m : Byte) : Byte := m >>> 1

/-- ROL's result: `((m << 1) mod 256) | c` (R247). -/
def rolByte (s : State) (m : Byte) : Byte := (m <<< 1) ||| (BitVec.ofBool (s.flag .c)).setWidth 8

/-- ROR's result: `(m >> 1) | (c << 7)` (R248). -/
def rorByte (s : State) (m : Byte) : Byte := (m >>> 1) ||| ((BitVec.ofBool (s.flag .c)).setWidth 8 <<< 7)

/-- The flags of ASL and ROL: bit 7 of the operand goes to C (R244). -/
def leftFlags (m r : Byte) (s : State) : State := (s.setFlag .c (m.getLsbD 7)).setNZ r

/-- The flags of LSR and ROR: bit 0 of the operand goes to C (R244). -/
def rightFlags (m r : Byte) (s : State) : State := (s.setFlag .c (m.getLsbD 0)).setNZ r

/-- INC's result (R220), also the first half of ISB (R309). -/
def incByte (_ : State) (m : Byte) : Byte := m + 1

/-- DEC's result (R223), also the first half of DCM (R308). -/
def decByte (_ : State) (m : Byte) : Byte := m - 1

/-- The flags of INC and DEC (R220, R223). -/
def resultFlags (_ r : Byte) (s : State) : State := s.setNZ r

/-- The second half of DCM: `Compare(A, r)` (R308). -/
def compareResult (_ r : Byte) (s : State) : State := compareA r s

/-- The second half of ISB: the operation of SBC on the new byte (R309). -/
def subtractResult (_ r : Byte) (s : State) : State := sbc r s

end Sys2Proof.Machine
end

