-- ==== Sys2Proof/Machine/PpuSpace.lean ====
section
/-! DEFINITION. The PPU's address space (spec/20_memory.md R80 to R87) and the loopy registers
(spec/10_state.md R30). -/

namespace Sys2Proof.Machine

/-! ### Loopy fields (R30) -/

/-- `v[4:0]`. -/
def coarseX (v : BitVec 15) : BitVec 5 := v.extractLsb' 0 5

/-- `v[9:5]`. -/
def coarseY (v : BitVec 15) : BitVec 5 := v.extractLsb' 5 5

/-- `v[10]`. -/
def ntX (v : BitVec 15) : Bool := v.getLsbD 10

/-- `v[11]`. -/
def ntY (v : BitVec 15) : Bool := v.getLsbD 11

/-- `v[14:12]`. -/
def fineY (v : BitVec 15) : BitVec 3 := v.extractLsb' 12 3

/-- The packing `yyy NN YYYYY XXXXX`: fine Y, nametable Y, nametable X, coarse Y, coarse X (R30). -/
def packLoopy (fy : BitVec 3) (ny nx : Bool) (cy cx : BitVec 5) : BitVec 15 :=
  fy ++ BitVec.ofBool ny ++ BitVec.ofBool nx ++ cy ++ cx

/-- `v` with coarse X replaced. -/
def withCoarseX (c : BitVec 5) (v : BitVec 15) : BitVec 15 := packLoopy (fineY v) (ntY v) (ntX v) (coarseY v) c

/-- `v` with coarse Y replaced. -/
def withCoarseY (c : BitVec 5) (v : BitVec 15) : BitVec 15 := packLoopy (fineY v) (ntY v) (ntX v) c (coarseX v)

/-- `v` with nametable X replaced. -/
def withNtX (b : Bool) (v : BitVec 15) : BitVec 15 := packLoopy (fineY v) (ntY v) b (coarseY v) (coarseX v)

/-- `v` with nametable Y replaced. -/
def withNtY (b : Bool) (v : BitVec 15) : BitVec 15 := packLoopy (fineY v) b (ntX v) (coarseY v) (coarseX v)

/-- `v` with fine Y replaced. -/
def withFineY (f : BitVec 3) (v : BitVec 15) : BitVec 15 := packLoopy f (ntY v) (ntX v) (coarseY v) (coarseX v)

/-! ### Address space -/

/-- `a & 0x3FFF` (R80). -/
def ppuAddr (a : Addr) : Addr := a &&& 0x3FFF

/-- `NtIndex(a)` for a reduced `a` in $2000-$3EFF (R84, D31). -/
def ntIndex (m : Mirroring) (a : Addr) : Nat :=
  let high := match m with
    | .horizontal => a.getLsbD 11
    | .vertical => a.getLsbD 10
  high.toNat * 0x400 + a.toNat % 0x400

/-- `PalIndex(a)` for a reduced `a` in $3F00-$3FFF (R85). -/
def palIndex (a : Addr) : Nat :=
  let i := a.toNat % 0x20
  if i = 0x10 ∨ i = 0x14 ∨ i = 0x18 ∨ i = 0x1C then i - 0x10 else i

/-- `ChrRead(a)` for `a` in $0000-$1FFF (R82). -/
def chrRead (a : Addr) (s : State) : Byte :=
  if s.cfg.chrIsRam then s.chrRam.read a.toNat else s.cfg.chr.read a.toNat

/-- `PpuRead(a)` (R81). It has no side effect. -/
def ppuRead (a : Addr) (s : State) : Byte :=
  let r := ppuAddr a
  if r.toNat < 0x2000 then chrRead r s
  else if r.toNat < 0x3F00 then s.ppu.vram.read (ntIndex s.cfg.mirroring r)
  else s.ppu.palette.read (palIndex r)

/-- `PpuWrite(a, v)` (R83, D24). -/
def ppuWrite (a : Addr) (b : Byte) (s : State) : State :=
  let r := ppuAddr a
  if r.toNat < 0x2000 then (if s.cfg.chrIsRam then s.setChrRam (s.chrRam.write r.toNat b) else s)
  else if r.toNat < 0x3F00 then
    s.setPpu { s.ppu with vram := s.ppu.vram.write (ntIndex s.cfg.mirroring r) b }
  else s.setPpu { s.ppu with palette := s.ppu.palette.write (palIndex r) b }

end Sys2Proof.Machine
end

