-- ==== Sys2Proof/Machine/PpuPort.lean ====
section
/-! DEFINITION. The PPU registers as the CPU sees them at $2000-$2007 (spec/47_ppu_registers.md R320 to R334). -/

namespace Sys2Proof.Machine

/-- `VramIncrement()` on `v` (R333). -/
def vramIncrement (u : Ppu) : BitVec 15 := u.v + (if u.ctrl.getLsbD 2 then 32 else 1)

/-- PPUCTRL write (R321). -/
def writeCtrl (b : Byte) (u : Ppu) : Ppu :=
  { u with ctrl := b, t := (u.t &&& 0x73FF#15) ||| ((b &&& 0x03#8).setWidth 15 <<< 10) }

/-- PPUMASK write (R322). -/
def writeMask (b : Byte) (u : Ppu) : Ppu := { u with mask := b }

/-- The value of a PPUSTATUS read (R323). -/
def statusValue (u : Ppu) : Byte := (u.status &&& 0xE0) ||| (u.bufferData &&& 0x1F)

/-- What a PPUSTATUS read changes: VBLANK and the toggle are cleared (R323). -/
def readStatus (u : Ppu) : Ppu := { u with status := u.status &&& 0x7F, w := false }

/-- OAMADDR write (R325). -/
def writeOamAddr (b : Byte) (u : Ppu) : Ppu := { u with oamAddr := b }

/-- OAMDATA read (R326). -/
def readOamData (u : Ppu) : Byte := u.oam.read u.oamAddr.toNat

/-- OAMDATA write (R327). -/
def writeOamData (b : Byte) (u : Ppu) : Ppu :=
  { u with oam := u.oam.write u.oamAddr.toNat b, oamAddr := u.oamAddr + 1 }

/-- PPUSCROLL write (R328). -/
def writeScroll (b : Byte) (u : Ppu) : Ppu :=
  if u.w then
    { u with
      t := (u.t &&& 0x0C1F#15) ||| ((b &&& 0x07#8).setWidth 15 <<< 12) ||| ((b >>> 3).setWidth 15 <<< 5)
      w := false }
  else { u with t := (u.t &&& 0x7FE0#15) ||| (b >>> 3).setWidth 15, x := b.setWidth 3, w := true }

/-- PPUADDR write (R330; the mask of the second write is 0x7F00, 90_conflicts.md C3). -/
def writeAddr (b : Byte) (u : Ppu) : Ppu :=
  if u.w then
    let t := (u.t &&& 0x7F00#15) ||| b.setWidth 15
    { u with t := t, v := t, w := false }
  else { u with t := (u.t &&& 0x00FF#15) ||| ((b &&& 0x3F#8).setWidth 15 <<< 8), w := true }

/-- The address of a PPUDATA access: `v & 0x3FFF` (R329, R332). -/
def dataAddr (u : Ppu) : Addr := ppuAddr (u.v.setWidth 16)

/-- PPUDATA read (R329): the result and the state after it. -/
def readData (s : State) : Byte × State :=
  let fresh := ppuRead (dataAddr s.ppu) s
  (if 0x3F00 ≤ (dataAddr s.ppu).toNat then fresh else s.ppu.bufferData,
   s.setPpu { s.ppu with bufferData := fresh, v := vramIncrement s.ppu })

/-- PPUDATA write (R332). -/
def writeData (b : Byte) (s : State) : State :=
  let t := ppuWrite (dataAddr s.ppu) b s
  t.setPpu { t.ppu with v := vramIncrement t.ppu }

/-- `PpuRegRead(reg)` (R320); the write-only registers read 0 (R331, D20). -/
def ppuRegRead (r : BitVec 3) (s : State) : Byte × State :=
  match r.toNat with
  | 2 => (statusValue s.ppu, s.setPpu (readStatus s.ppu))
  | 4 => (readOamData s.ppu, s)
  | 7 => readData s
  | _ => (0, s)

/-- `PpuRegWrite(reg, val)` (R320); a PPUSTATUS write does nothing (R324, D20). -/
def ppuRegWrite (r : BitVec 3) (b : Byte) (s : State) : State :=
  match r.toNat with
  | 0 => s.setPpu (writeCtrl b s.ppu)
  | 1 => s.setPpu (writeMask b s.ppu)
  | 3 => s.setPpu (writeOamAddr b s.ppu)
  | 4 => s.setPpu (writeOamData b s.ppu)
  | 5 => s.setPpu (writeScroll b s.ppu)
  | 6 => s.setPpu (writeAddr b s.ppu)
  | 7 => writeData b s
  | _ => s

end Sys2Proof.Machine
end

