-- ==== Sys2Proof/Machine/Ops.lean ====
section
/-! DEFINITION. The CPU's bus (spec/20_memory.md R71, R72), OAM DMA (spec/49_bus_clock_dma.md R395), the stack
(spec/42_stack.md R200 to R202), taking an interrupt and returning from one (spec/60_exceptions.md R410 to R418),
and how a step advances `PC` and charges cycles (spec/40_fetch_decode_addressing.md R140). -/

namespace Sys2Proof.Machine

/-! ### CPU bus -/

/-- Where the bus routes a CPU address (R71, R72). -/
inductive Region where
  /-- the flat RAM of the stand-alone CPU (70_reset_and_hazards.md R459) -/
  | flat (i : Nat)
  /-- internal RAM -/
  | ram (i : Nat)
  /-- a PPU register -/
  | ppuPort (r : BitVec 3)
  /-- $4014 -/
  | dmaPort
  /-- reads 0, discards writes: the stub (R76), $4020-$5FFF, an absent PRG-RAM (D25) -/
  | zero
  /-- cartridge PRG-RAM -/
  | prgRam (i : Nat)
  /-- cartridge PRG-ROM -/
  | prgRom (i : Nat)
deriving DecidableEq, Repr

/-- The routing of a 16-bit CPU address; the first matching row of R71 and R72. -/
def route (c : Config) (a : Addr) : Region :=
  match c.bus with
  | .flat => .flat a.toNat
  | .system =>
    if a.toNat < 0x2000 then .ram (a.toNat % 0x800)
    else if a.toNat < 0x4000 then .ppuPort (a.setWidth 3)
    else if a.toNat = 0x4014 then .dmaPort
    else if a.toNat < 0x6000 then .zero
    else if a.toNat < 0x8000 then (if c.hasPrgRam then .prgRam (a.toNat - 0x6000) else .zero)
    else .prgRom ((a.toNat - 0x8000) % c.prgBanks.size)

/-- `MemRead(addr, 1)` (R71): the byte and the state after the read. -/
def memRead (a : Addr) (s : State) : Byte × State :=
  match route s.cfg a with
  | .flat i => (s.flatMem.read i, s)
  | .ram i => (s.ram.read i, s)
  | .ppuPort r => ppuRegRead r s
  | .dmaPort => (0, s)
  | .zero => (0, s)
  | .prgRam i => (s.prgRam.read i, s)
  | .prgRom i => (s.cfg.prgRom.read i, s)

/-- The byte a read of `a` would give now, without the read's side effect. -/
def peek (a : Addr) (s : State) : Byte := (memRead a s).1

/-- `MemRead(addr, 2)`: low byte first, the second address modulo 65536 (00_scope.md R13). -/
def memRead16 (a : Addr) (s : State) : Addr × State :=
  let lo := memRead a s
  let hi := memRead (a + 1) lo.2
  (word hi.1 lo.1, hi.2)

/-- The source of a DMA: page `val` (R395). -/
def dmaBase (val : Byte) : Addr := zext16 val <<< 8

/-- One transfer of a DMA: a bus read, then an OAMDATA write (R395). -/
def dmaTransfer (src : Addr) (s : State) : State :=
  let r := memRead src s
  ppuRegWrite 4 r.1 r.2

/-- `n` transfers in ascending order from `src` (R395, D34). -/
def dmaTransfers : Nat → Addr → State → State
  | 0, _, s => s
  | n + 1, src, s => dmaTransfers n (src + 1) (dmaTransfer src s)

/-- OAM DMA, carried out inside the write to $4014; it adds 513 to the debt (R395). -/
def oamDma (val : Byte) (s : State) : State :=
  let t := dmaTransfers 256 (dmaBase val) s
  t.setCycles (t.cpu.cycles + 513)

/-- `MemWrite(addr, 1, v)` (R72); a write to PRG-ROM is ignored (D25). -/
def memWrite (a : Addr) (b : Byte) (s : State) : State :=
  match route s.cfg a with
  | .flat i => s.setFlatMem (s.flatMem.write i b)
  | .ram i => s.setRam (s.ram.write i b)
  | .ppuPort r => ppuRegWrite r b s
  | .dmaPort => oamDma b s
  | .zero => s
  | .prgRam i => s.setPrgRam (s.prgRam.write i b)
  | .prgRom _ => s

/-! ### Stack -/

/-- The address `0x0100 + S` of the stack page (R200). -/
def stackAddr (sp : Byte) : Addr := word 0x01 sp

/-- `Push(v)`: store, then decrement (R200, 90_conflicts.md C1). -/
def push (b : Byte) (s : State) : State :=
  let t := memWrite (stackAddr s.cpu.s) b s
  t.setS (t.cpu.s - 1)

/-- `Pop()`: increment, then load (R201). -/
def pop (s : State) : Byte × State :=
  let t := s.setS (s.cpu.s + 1)
  memRead (stackAddr t.cpu.s) t

/-- `Push16(w)`: high, then low (R202). -/
def push16 (w : Addr) (s : State) : State := push (loByte w) (push (hiByte w) s)

/-- `Pop16()`: low, then high (R202). -/
def pop16 (s : State) : Addr × State :=
  let lo := pop s
  let hi := pop lo.2
  (word hi.1 lo.1, hi.2)

/-! ### Program counter and debt -/

/-- `cycles <- cycles + n - CPU_DEBT_BIAS` (R140, R159, D3). -/
def charge (n : Nat) (s : State) : State := s.setCycles (s.cpu.cycles + n - s.cfg.debtBias.amount)

/-- The end of an instruction outside the control-transfer set: `PC` past the operand bytes, `n` cycles (R140). -/
def retire (length n : Nat) (s : State) : State := charge n (s.setPc (s.cpu.pc + BitVec.ofNat 16 (length - 1)))

/-- A 16-bit value is read through the bus and becomes the program counter. -/
def jumpThrough (vector : Addr) (s : State) : State :=
  let r := memRead16 vector s
  r.2.setPc r.1

/-! ### Interrupts and the one exception -/

/-- The vectors (60_exceptions.md R416). -/
def nmiVector : Addr := 0xFFFA
def resetVector : Addr := 0xFFFC
def irqVector : Addr := 0xFFFE

/-- The vector of an interrupt entry (R415). -/
def vectorOf : Interrupt → Addr
  | .nmi => nmiVector
  | .irq => irqVector

/-- The cycles an interrupt entry charges: 7 for NMI, 8 for IRQ (R415). -/
def entryCycles : Interrupt → Nat
  | .nmi => 7
  | .irq => 8

/-- The shared part of every entry through a vector, BRK's included: push `ret` high then low, push the status
image, set I, load `PC` from the vector. The order of the last two is R415's; R282 has them the other way
round, which nothing can observe. -/
def enterHandler (ret : Addr) (image : Byte) (vector : Addr) (s : State) : State :=
  jumpThrough vector ((push image (push16 ret s)).setFlag .i true)

/-- `InterruptEntry()` for the pending interrupt `k` (R415). -/
def interruptEntry (k : Interrupt) (s : State) : State :=
  (charge (entryCycles k) (enterHandler s.cpu.pc (imageNoB s.cpu.p) (vectorOf k) s)).setPending none

/-- The return of RTI: pull `P` (B cleared, U set), then `PC`, no 1 added (45_control_flags_system.md R283). -/
def returnFromInterrupt (s : State) : State :=
  let b := pop s
  let r := pop16 (b.2.setP (pulledStatus b.1))
  r.2.setPc r.1

/-- `raise InvalidInstruction(op, pc)`: recorded, nothing else (60_exceptions.md R410). -/
def raiseInvalid (op : Byte) (pc : Addr) (s : State) : State := s.setFault (some (.invalidInstruction op pc))

/-- `trigger_nmi()` (R412). -/
def triggerNmi (s : State) : State := s.setPending (some .nmi)

/-- `trigger_irq()` (R413): dropped while I is set, and while an NMI holds the slot (D16). -/
def triggerIrq (s : State) : State :=
  if s.flag .i then s
  else if s.cpu.pending = some .nmi then s
  else s.setPending (some .irq)

/-- Apply a change to the state of an outcome that goes on. -/
def mapNext (f : State → State) : Result → Result
  | .next t => .next (f t)
  | .fault r => .fault r
  | .refused r => .refused r

end Sys2Proof.Machine
end

