-- ==== Sys2Proof/Machine/Operands.lean ====
section
/-! DEFINITION. The addressing modes (spec/40_fetch_decode_addressing.md R143 to R155) and the access classes
(R156) with the penalties of R157 and R158. The operand bytes are already fetched: they stand in the instruction. -/

namespace Sys2Proof.Machine

/-- The operand forms that have an effective address for data, with their assembled operand bytes (30_encoding.md R122). -/
inductive MemOperand where
  /-- ZeroPage (R146) -/
  | zp (b : Byte)
  /-- ZeroPage,X (R147) -/
  | zpX (b : Byte)
  /-- ZeroPage,Y (R148) -/
  | zpY (b : Byte)
  /-- Absolute (R150) -/
  | abs (a : Addr)
  /-- Absolute,X (R151) -/
  | absX (a : Addr)
  /-- Absolute,Y (R152) -/
  | absY (a : Addr)
  /-- (Indirect,X) (R154) -/
  | indX (b : Byte)
  /-- (Indirect),Y (R155) -/
  | indY (b : Byte)
deriving DecidableEq, Repr

/-- The length of an instruction with this operand (R160). -/
def operandLength : MemOperand → Nat
  | .zp _ | .zpX _ | .zpY _ | .indX _ | .indY _ => 2
  | .abs _ | .absX _ | .absY _ => 3

/-- An operand locator: the effective address, whether the index crossed a page, and the state after the
pointer reads. -/
structure Located where
  ea : Addr
  crossed : Bool
  st : State
deriving DecidableEq, Repr

/-- `ZpRead16(p)`: both bytes from page 0 (00_scope.md R13). -/
def zpRead16 (p : Byte) (s : State) : Addr × State :=
  let lo := memRead (zext16 p) s
  let hi := memRead (zext16 (p + 1)) lo.2
  (word hi.1 lo.1, hi.2)

/-- `base + index` modulo 65536 with its page test (R151, R152, R155). -/
def indexed (base : Addr) (index : Byte) (s : State) : Located :=
  ⟨base + zext16 index, pageDiffers base (base + zext16 index), s⟩

/-- Find the operand (R146 to R155). -/
def resolve (o : MemOperand) (s : State) : Located :=
  match o with
  | .zp b => ⟨zext16 b, false, s⟩
  | .zpX b => ⟨zext16 (b + s.cpu.x), false, s⟩
  | .zpY b => ⟨zext16 (b + s.cpu.y), false, s⟩
  | .abs a => ⟨a, false, s⟩
  | .absX a => indexed a s.cpu.x s
  | .absY a => indexed a s.cpu.y s
  | .indX b =>
    let r := zpRead16 (b + s.cpu.x) s
    ⟨r.1, false, r.2⟩
  | .indY b =>
    let r := zpRead16 b s
    indexed r.1 s.cpu.y r.2

/-- Where JMP (indirect) reads the high byte of its target (R153, D13). -/
def pointerHigh (pageWrap : Bool) (ptr : Addr) : Addr :=
  if pageWrap then word (hiByte ptr) (loByte ptr + 1) else ptr + 1

/-- The target of JMP (indirect), low byte read first (R153). -/
def resolveIndirect (ptr : Addr) (s : State) : Addr × State :=
  let lo := memRead ptr s
  let hi := memRead (pointerHigh s.cfg.jmpIndirectPageWrap ptr) lo.2
  (word hi.1 lo.1, hi.2)

/-- The address after a branch's offset byte (R149): `PC` points at that byte. -/
def branchNext (s : State) : Addr := s.cpu.pc + 1

/-- The target of a branch with signed offset `off` (R149, R260). -/
def branchTarget (off : Int) (s : State) : Addr := branchNext s + BitVec.ofInt 16 off

/-- The page-cross penalty of the read class (R157). -/
def crossPenalty (crossed : Bool) : Nat := crossed.toNat

/-! ### Access classes (R156) -/

/-- Immediate operand of the read class: no data access (R145, R156). -/
def readImm (m : Byte) (op : Byte → State → State) (s : State) : Result := .next (retire 2 2 (op m s))

/-- Read class: one data read, then the operation; +1 when the index crossed a page (R156, R157). -/
def readClass (o : MemOperand) (base : Nat) (op : Byte → State → State) (s : State) : Result :=
  let l := resolve o s
  let r := memRead l.ea l.st
  .next (retire (operandLength o) (base + crossPenalty l.crossed) (op r.1 r.2))

/-- Write class: one data write, the old byte is not read, no penalty (R156, R157). -/
def writeClass (o : MemOperand) (base : Nat) (value : State → Byte) (s : State) : Result :=
  let l := resolve o s
  .next (retire (operandLength o) base (memWrite l.ea (value l.st) l.st))

/-- Read-modify-write class: one read, one write of `result`, then what `finish` does with the old and the new
byte; no penalty (R156, R157). -/
def rmwClass (o : MemOperand) (base : Nat) (result : State → Byte → Byte) (finish : Byte → Byte → State → State)
    (s : State) : Result :=
  let l := resolve o s
  let r := memRead l.ea l.st
  let b := result r.2 r.1
  .next (retire (operandLength o) base (finish r.1 b (memWrite l.ea b r.2)))

/-- Accumulator mode of a shift or rotate: no bus access (R144, 44_logic_shift.md R244). -/
def accClass (result : State → Byte → Byte) (finish : Byte → Byte → State → State) (s : State) : Result :=
  let b := result s s.cpu.a
  .next (retire 1 2 (finish s.cpu.a b (s.setA b)))

/-- Implicit mode: an operation on the state, one byte long (R143). -/
def implied (n : Nat) (op : State → State) (s : State) : Result := .next (retire 1 n (op s))

/-- Undocumented NOP with an operand: the bytes are fetched, no data access; `extra` is the page-cross cycle of
Absolute,X (R156, 46_undocumented.md R301 to R305, D12). -/
def nopClass (length n : Nat) (s : State) : Result := .next (retire length n s)

/-- `Branch(cond)` (45_control_flags_system.md R260) with base 2 cycles and the penalties of R158. -/
def branchClass (cond : Bool) (off : Int) (s : State) : Result :=
  if cond then
    .next (charge (2 + 1 + (pageDiffers (branchNext s) (branchTarget off s)).toNat) (s.setPc (branchTarget off s)))
  else .next (charge 2 (s.setPc (branchNext s)))

end Sys2Proof.Machine
end

