-- ==== Sys2Proof/Machine/Arithmetic.lean ====
section
/-! DEFINITION. ADC, SBC, compares, increments and decrements (spec/43_arithmetic_compare.md R212 to R225). -/

namespace Sys2Proof.Machine

/-- `X <- (X + 1) mod 256; SetNZ(X)` (R221). -/
def incX8 (s : State) : State := loadX (s.cpu.x + 1) s

/-- `Y <- (Y + 1) mod 256; SetNZ(Y)` (R222). -/
def incY8 (s : State) : State := loadY (s.cpu.y + 1) s

/-- `X <- (X - 1) mod 256; SetNZ(X)` (R224). -/
def decX8 (s : State) : State := loadX (s.cpu.x - 1) s

/-- `Y <- (Y - 1) mod 256; SetNZ(Y)` (R225). -/
def decY8 (s : State) : State := loadY (s.cpu.y - 1) s

/-- ADC (Indirect,X), $61, 2/6 (R212). -/
def execAdcIndX (zp : Byte) (s : State) : Result := readClass (.indX zp) 6 adc s

/-- ADC ZeroPage, $65, 2/3 (R212). -/
def execAdcZp (zp : Byte) (s : State) : Result := readClass (.zp zp) 3 adc s

/-- ADC Immediate, $69, 2/2 (R212). -/
def execAdcImm (imm : Byte) (s : State) : Result := readImm imm adc s

/-- ADC Absolute, $6D, 3/4 (R212). -/
def execAdcAbs (addr : Addr) (s : State) : Result := readClass (.abs addr) 4 adc s

/-- ADC (Indirect),Y, $71, 2/5+p (R212). -/
def execAdcIndY (zp : Byte) (s : State) : Result := readClass (.indY zp) 5 adc s

/-- ADC ZeroPage,X, $75, 2/4 (R212). -/
def execAdcZpX (zp : Byte) (s : State) : Result := readClass (.zpX zp) 4 adc s

/-- ADC Absolute,Y, $79, 3/4+p (R212). -/
def execAdcAbsY (addr : Addr) (s : State) : Result := readClass (.absY addr) 4 adc s

/-- ADC Absolute,X, $7D, 3/4+p (R212). -/
def execAdcAbsX (addr : Addr) (s : State) : Result := readClass (.absX addr) 4 adc s

/-- SBC (Indirect,X), $E1, 2/6 (R214). -/
def execSbcIndX (zp : Byte) (s : State) : Result := readClass (.indX zp) 6 sbc s

/-- SBC ZeroPage, $E5, 2/3 (R214). -/
def execSbcZp (zp : Byte) (s : State) : Result := readClass (.zp zp) 3 sbc s

/-- SBC Immediate, $E9, 2/2 (R214). -/
def execSbcImm (imm : Byte) (s : State) : Result := readImm imm sbc s

/-- SBC Absolute, $ED, 3/4 (R214). -/
def execSbcAbs (addr : Addr) (s : State) : Result := readClass (.abs addr) 4 sbc s

/-- SBC (Indirect),Y, $F1, 2/5+p (R214). -/
def execSbcIndY (zp : Byte) (s : State) : Result := readClass (.indY zp) 5 sbc s

/-- SBC ZeroPage,X, $F5, 2/4 (R214). -/
def execSbcZpX (zp : Byte) (s : State) : Result := readClass (.zpX zp) 4 sbc s

/-- SBC Absolute,Y, $F9, 3/4+p (R214). -/
def execSbcAbsY (addr : Addr) (s : State) : Result := readClass (.absY addr) 4 sbc s

/-- SBC Absolute,X, $FD, 3/4+p (R214). -/
def execSbcAbsX (addr : Addr) (s : State) : Result := readClass (.absX addr) 4 sbc s

/-- CMP (Indirect,X), $C1, 2/6 (R216). -/
def execCmpIndX (zp : Byte) (s : State) : Result := readClass (.indX zp) 6 compareA s

/-- CMP ZeroPage, $C5, 2/3 (R216). -/
def execCmpZp (zp : Byte) (s : State) : Result := readClass (.zp zp) 3 compareA s

/-- CMP Immediate, $C9, 2/2 (R216). -/
def execCmpImm (imm : Byte) (s : State) : Result := readImm imm compareA s

/-- CMP Absolute, $CD, 3/4 (R216). -/
def execCmpAbs (addr : Addr) (s : State) : Result := readClass (.abs addr) 4 compareA s

/-- CMP (Indirect),Y, $D1, 2/5+p (R216). -/
def execCmpIndY (zp : Byte) (s : State) : Result := readClass (.indY zp) 5 compareA s

/-- CMP ZeroPage,X, $D5, 2/4 (R216). -/
def execCmpZpX (zp : Byte) (s : State) : Result := readClass (.zpX zp) 4 compareA s

/-- CMP Absolute,Y, $D9, 3/4+p (R216). -/
def execCmpAbsY (addr : Addr) (s : State) : Result := readClass (.absY addr) 4 compareA s

/-- CMP Absolute,X, $DD, 3/4+p (R216). -/
def execCmpAbsX (addr : Addr) (s : State) : Result := readClass (.absX addr) 4 compareA s

/-- CPX Immediate, $E0, 2/2 (R217). -/
def execCpxImm (imm : Byte) (s : State) : Result := readImm imm compareX s

/-- CPX ZeroPage, $E4, 2/3 (R217). -/
def execCpxZp (zp : Byte) (s : State) : Result := readClass (.zp zp) 3 compareX s

/-- CPX Absolute, $EC, 3/4 (R217). -/
def execCpxAbs (addr : Addr) (s : State) : Result := readClass (.abs addr) 4 compareX s

/-- CPY Immediate, $C0, 2/2 (R218). -/
def execCpyImm (imm : Byte) (s : State) : Result := readImm imm compareY s

/-- CPY ZeroPage, $C4, 2/3 (R218). -/
def execCpyZp (zp : Byte) (s : State) : Result := readClass (.zp zp) 3 compareY s

/-- CPY Absolute, $CC, 3/4 (R218). -/
def execCpyAbs (addr : Addr) (s : State) : Result := readClass (.abs addr) 4 compareY s

/-- INC ZeroPage, $E6, 2/5 (R220). -/
def execIncZp (zp : Byte) (s : State) : Result := rmwClass (.zp zp) 5 incByte resultFlags s

/-- INC Absolute, $EE, 3/6 (R220). -/
def execIncAbs (addr : Addr) (s : State) : Result := rmwClass (.abs addr) 6 incByte resultFlags s

/-- INC ZeroPage,X, $F6, 2/6 (R220). -/
def execIncZpX (zp : Byte) (s : State) : Result := rmwClass (.zpX zp) 6 incByte resultFlags s

/-- INC Absolute,X, $FE, 3/7 (R220). -/
def execIncAbsX (addr : Addr) (s : State) : Result := rmwClass (.absX addr) 7 incByte resultFlags s

/-- DEC ZeroPage, $C6, 2/5 (R223). -/
def execDecZp (zp : Byte) (s : State) : Result := rmwClass (.zp zp) 5 decByte resultFlags s

/-- DEC Absolute, $CE, 3/6 (R223). -/
def execDecAbs (addr : Addr) (s : State) : Result := rmwClass (.abs addr) 6 decByte resultFlags s

/-- DEC ZeroPage,X, $D6, 2/6 (R223). -/
def execDecZpX (zp : Byte) (s : State) : Result := rmwClass (.zpX zp) 6 decByte resultFlags s

/-- DEC Absolute,X, $DE, 3/7 (R223). -/
def execDecAbsX (addr : Addr) (s : State) : Result := rmwClass (.absX addr) 7 decByte resultFlags s

/-- INX Implicit, $E8, 1/2 (R221). -/
def execInx (s : State) : Result := implied 2 incX8 s

/-- INY Implicit, $C8, 1/2 (R222). -/
def execIny (s : State) : Result := implied 2 incY8 s

/-- DEX Implicit, $CA, 1/2 (R224). -/
def execDex (s : State) : Result := implied 2 decX8 s

/-- DEY Implicit, $88, 1/2 (R225). -/
def execDey (s : State) : Result := implied 2 decY8 s

end Sys2Proof.Machine
end

