-- ==== Sys2Proof/Machine/Control.lean ====
section
/-! DEFINITION. Branches, jumps, subroutines, BRK, RTI, flag instructions and NOP (spec/45_control_flags_system.md R260 to
R293). On entry `PC` is the opcode address plus one; `+b` is the branch penalty of R158. -/

namespace Sys2Proof.Machine

/-- JMP indirect (R279): `PC <- EA`, 5 cycles. -/
def jumpIndirect (ptr : Addr) (s : State) : Result :=
  let r := resolveIndirect ptr s
  .next (charge 5 (r.2.setPc r.1))

/-- JSR (R280): push the address of the instruction's last byte, jump. -/
def jumpSubroutine (target : Addr) (s : State) : Result :=
  .next (charge 6 ((push16 (s.cpu.pc + 1) s).setPc target))

/-- RTS (R281): `PC <- (Pop16() + 1) mod 65536`. -/
def returnFromSubroutine (s : State) : Result :=
  let r := pop16 s
  .next (charge 6 (r.2.setPc (r.1 + 1)))

/-- BRK (R282): the entry through $FFFE with the image that has B set; the pushed address is the opcode's plus two. -/
def softwareInterrupt (s : State) : Result :=
  .next (charge 7 (enterHandler (s.cpu.pc + 1) (imageWithB s.cpu.p) irqVector s))

/-- BCC Relative, $90, 2/2+b (R261). -/
def execBcc (off : Int) (s : State) : Result := branchClass (!s.flag .c) off s

/-- BCS Relative, $B0, 2/2+b (R262). -/
def execBcs (off : Int) (s : State) : Result := branchClass (s.flag .c) off s

/-- BEQ Relative, $F0, 2/2+b (R263). -/
def execBeq (off : Int) (s : State) : Result := branchClass (s.flag .z) off s

/-- BNE Relative, $D0, 2/2+b (R264). -/
def execBne (off : Int) (s : State) : Result := branchClass (!s.flag .z) off s

/-- BMI Relative, $30, 2/2+b (R265). -/
def execBmi (off : Int) (s : State) : Result := branchClass (s.flag .n) off s

/-- BPL Relative, $10, 2/2+b (R266). -/
def execBpl (off : Int) (s : State) : Result := branchClass (!s.flag .n) off s

/-- BVC Relative, $50, 2/2+b (R267). -/
def execBvc (off : Int) (s : State) : Result := branchClass (!s.flag .v) off s

/-- BVS Relative, $70, 2/2+b (R268). -/
def execBvs (off : Int) (s : State) : Result := branchClass (s.flag .v) off s

/-- JMP Absolute, $4C, 3/3 (R278). -/
def execJmpAbs (addr : Addr) (s : State) : Result := .next (charge 3 (s.setPc addr))

/-- JMP Indirect, $6C, 3/5 (R279). -/
def execJmpInd (addr : Addr) (s : State) : Result := jumpIndirect addr s

/-- JSR Absolute, $20, 3/6 (R280). -/
def execJsr (addr : Addr) (s : State) : Result := jumpSubroutine addr s

/-- RTS Implicit, $60, 1/6 (R281). -/
def execRts (s : State) : Result := returnFromSubroutine s

/-- BRK Implicit, $00, 1/7 (R282). -/
def execBrk (s : State) : Result := softwareInterrupt s

/-- RTI Implicit, $40, 1/6 (R283). -/
def execRti (s : State) : Result := .next (charge 6 (returnFromInterrupt s))

/-- CLC Implicit, $18, 1/2 (R285). -/
def execClc (s : State) : Result := implied 2 (State.setFlag .c false) s

/-- SEC Implicit, $38, 1/2 (R286). -/
def execSec (s : State) : Result := implied 2 (State.setFlag .c true) s

/-- CLI Implicit, $58, 1/2 (R287). -/
def execCli (s : State) : Result := implied 2 (State.setFlag .i false) s

/-- SEI Implicit, $78, 1/2 (R288). -/
def execSei (s : State) : Result := implied 2 (State.setFlag .i true) s

/-- CLD Implicit, $D8, 1/2 (R289). -/
def execCld (s : State) : Result := implied 2 (State.setFlag .d false) s

/-- SED Implicit, $F8, 1/2 (R290). -/
def execSed (s : State) : Result := implied 2 (State.setFlag .d true) s

/-- CLV Implicit, $B8, 1/2 (R291). -/
def execClv (s : State) : Result := implied 2 (State.setFlag .v false) s

/-- NOP Implicit, $EA, 1/2 (R292). -/
def execNop (s : State) : Result := nopClass 1 2 s

end Sys2Proof.Machine
end

