-- ==== Sys2Proof/Machine/LoadStore.lean ====
section
/-! DEFINITION. Loads, stores and transfers (spec/41_load_store_transfer.md R170 to R187). In the docstrings `2/4+p` is the
length and the base cycles, `+p` one more cycle on a page cross. -/

namespace Sys2Proof.Machine

/-- The byte STA stores. -/
def regA (s : State) : Byte := s.cpu.a

/-- The byte STX stores. -/
def regX (s : State) : Byte := s.cpu.x

/-- The byte STY stores. -/
def regY (s : State) : Byte := s.cpu.y

/-- `X <- A; SetNZ(X)` (R180). -/
def transferAX (s : State) : State := loadX s.cpu.a s

/-- `Y <- A; SetNZ(Y)` (R181). -/
def transferAY (s : State) : State := loadY s.cpu.a s

/-- `A <- X; SetNZ(A)` (R182). -/
def transferXA (s : State) : State := loadA s.cpu.x s

/-- `A <- Y; SetNZ(A)` (R183). -/
def transferYA (s : State) : State := loadA s.cpu.y s

/-- `X <- S; SetNZ(X)` (R186). -/
def transferSX (s : State) : State := loadX s.cpu.s s

/-- `S <- X`, no flags (R187). -/
def transferXS (s : State) : State := s.setS s.cpu.x

/-- LDA (Indirect,X), $A1, 2/6 (R170). -/
def execLdaIndX (zp : Byte) (s : State) : Result := readClass (.indX zp) 6 loadA s

/-- LDA ZeroPage, $A5, 2/3 (R170). -/
def execLdaZp (zp : Byte) (s : State) : Result := readClass (.zp zp) 3 loadA s

/-- LDA Immediate, $A9, 2/2 (R170). -/
def execLdaImm (imm : Byte) (s : State) : Result := readImm imm loadA s

/-- LDA Absolute, $AD, 3/4 (R170). -/
def execLdaAbs (addr : Addr) (s : State) : Result := readClass (.abs addr) 4 loadA s

/-- LDA (Indirect),Y, $B1, 2/5+p (R170). -/
def execLdaIndY (zp : Byte) (s : State) : Result := readClass (.indY zp) 5 loadA s

/-- LDA ZeroPage,X, $B5, 2/4 (R170). -/
def execLdaZpX (zp : Byte) (s : State) : Result := readClass (.zpX zp) 4 loadA s

/-- LDA Absolute,Y, $B9, 3/4+p (R170). -/
def execLdaAbsY (addr : Addr) (s : State) : Result := readClass (.absY addr) 4 loadA s

/-- LDA Absolute,X, $BD, 3/4+p (R170). -/
def execLdaAbsX (addr : Addr) (s : State) : Result := readClass (.absX addr) 4 loadA s

/-- LDX Immediate, $A2, 2/2 (R171). -/
def execLdxImm (imm : Byte) (s : State) : Result := readImm imm loadX s

/-- LDX ZeroPage, $A6, 2/3 (R171). -/
def execLdxZp (zp : Byte) (s : State) : Result := readClass (.zp zp) 3 loadX s

/-- LDX Absolute, $AE, 3/4 (R171). -/
def execLdxAbs (addr : Addr) (s : State) : Result := readClass (.abs addr) 4 loadX s

/-- LDX ZeroPage,Y, $B6, 2/4 (R171). -/
def execLdxZpY (zp : Byte) (s : State) : Result := readClass (.zpY zp) 4 loadX s

/-- LDX Absolute,Y, $BE, 3/4+p (R171). -/
def execLdxAbsY (addr : Addr) (s : State) : Result := readClass (.absY addr) 4 loadX s

/-- LDY Immediate, $A0, 2/2 (R172). -/
def execLdyImm (imm : Byte) (s : State) : Result := readImm imm loadY s

/-- LDY ZeroPage, $A4, 2/3 (R172). -/
def execLdyZp (zp : Byte) (s : State) : Result := readClass (.zp zp) 3 loadY s

/-- LDY Absolute, $AC, 3/4 (R172). -/
def execLdyAbs (addr : Addr) (s : State) : Result := readClass (.abs addr) 4 loadY s

/-- LDY ZeroPage,X, $B4, 2/4 (R172). -/
def execLdyZpX (zp : Byte) (s : State) : Result := readClass (.zpX zp) 4 loadY s

/-- LDY Absolute,X, $BC, 3/4+p (R172). -/
def execLdyAbsX (addr : Addr) (s : State) : Result := readClass (.absX addr) 4 loadY s

/-- STA (Indirect,X), $81, 2/6 (R173). -/
def execStaIndX (zp : Byte) (s : State) : Result := writeClass (.indX zp) 6 regA s

/-- STA ZeroPage, $85, 2/3 (R173). -/
def execStaZp (zp : Byte) (s : State) : Result := writeClass (.zp zp) 3 regA s

/-- STA Absolute, $8D, 3/4 (R173). -/
def execStaAbs (addr : Addr) (s : State) : Result := writeClass (.abs addr) 4 regA s

/-- STA (Indirect),Y, $91, 2/6 (R173). -/
def execStaIndY (zp : Byte) (s : State) : Result := writeClass (.indY zp) 6 regA s

/-- STA ZeroPage,X, $95, 2/4 (R173). -/
def execStaZpX (zp : Byte) (s : State) : Result := writeClass (.zpX zp) 4 regA s

/-- STA Absolute,Y, $99, 3/5 (R173). -/
def execStaAbsY (addr : Addr) (s : State) : Result := writeClass (.absY addr) 5 regA s

/-- STA Absolute,X, $9D, 3/5 (R173). -/
def execStaAbsX (addr : Addr) (s : State) : Result := writeClass (.absX addr) 5 regA s

/-- STX ZeroPage, $86, 2/3 (R174). -/
def execStxZp (zp : Byte) (s : State) : Result := writeClass (.zp zp) 3 regX s

/-- STX Absolute, $8E, 3/4 (R174). -/
def execStxAbs (addr : Addr) (s : State) : Result := writeClass (.abs addr) 4 regX s

/-- STX ZeroPage,Y, $96, 2/4 (R174). -/
def execStxZpY (zp : Byte) (s : State) : Result := writeClass (.zpY zp) 4 regX s

/-- STY ZeroPage, $84, 2/3 (R175). -/
def execStyZp (zp : Byte) (s : State) : Result := writeClass (.zp zp) 3 regY s

/-- STY Absolute, $8C, 3/4 (R175). -/
def execStyAbs (addr : Addr) (s : State) : Result := writeClass (.abs addr) 4 regY s

/-- STY ZeroPage,X, $94, 2/4 (R175). -/
def execStyZpX (zp : Byte) (s : State) : Result := writeClass (.zpX zp) 4 regY s

/-- TAX Implicit, $AA, 1/2 (R180). -/
def execTax (s : State) : Result := implied 2 transferAX s

/-- TAY Implicit, $A8, 1/2 (R181). -/
def execTay (s : State) : Result := implied 2 transferAY s

/-- TXA Implicit, $8A, 1/2 (R182). -/
def execTxa (s : State) : Result := implied 2 transferXA s

/-- TYA Implicit, $98, 1/2 (R183). -/
def execTya (s : State) : Result := implied 2 transferYA s

/-- TSX Implicit, $BA, 1/2 (R186). -/
def execTsx (s : State) : Result := implied 2 transferSX s

/-- TXS Implicit, $9A, 1/2 (R187). -/
def execTxs (s : State) : Result := implied 2 transferXS s

end Sys2Proof.Machine
end

