-- ==== Sys2Proof/Machine/Logic.lean ====
section
/-! DEFINITION. AND, ORA, EOR, BIT, shifts and rotates (spec/44_logic_shift.md R240 to R248). -/

namespace Sys2Proof.Machine

/-- AND (Indirect,X), $21, 2/6 (R240). -/
def execAndIndX (zp : Byte) (s : State) : Result := readClass (.indX zp) 6 andA s

/-- AND ZeroPage, $25, 2/3 (R240). -/
def execAndZp (zp : Byte) (s : State) : Result := readClass (.zp zp) 3 andA s

/-- AND Immediate, $29, 2/2 (R240). -/
def execAndImm (imm : Byte) (s : State) : Result := readImm imm andA s

/-- AND Absolute, $2D, 3/4 (R240). -/
def execAndAbs (addr : Addr) (s : State) : Result := readClass (.abs addr) 4 andA s

/-- AND (Indirect),Y, $31, 2/5+p (R240). -/
def execAndIndY (zp : Byte) (s : State) : Result := readClass (.indY zp) 5 andA s

/-- AND ZeroPage,X, $35, 2/4 (R240). -/
def execAndZpX (zp : Byte) (s : State) : Result := readClass (.zpX zp) 4 andA s

/-- AND Absolute,Y, $39, 3/4+p (R240). -/
def execAndAbsY (addr : Addr) (s : State) : Result := readClass (.absY addr) 4 andA s

/-- AND Absolute,X, $3D, 3/4+p (R240). -/
def execAndAbsX (addr : Addr) (s : State) : Result := readClass (.absX addr) 4 andA s

/-- ORA (Indirect,X), $01, 2/6 (R241). -/
def execOraIndX (zp : Byte) (s : State) : Result := readClass (.indX zp) 6 oraA s

/-- ORA ZeroPage, $05, 2/3 (R241). -/
def execOraZp (zp : Byte) (s : State) : Result := readClass (.zp zp) 3 oraA s

/-- ORA Immediate, $09, 2/2 (R241). -/
def execOraImm (imm : Byte) (s : State) : Result := readImm imm oraA s

/-- ORA Absolute, $0D, 3/4 (R241). -/
def execOraAbs (addr : Addr) (s : State) : Result := readClass (.abs addr) 4 oraA s

/-- ORA (Indirect),Y, $11, 2/5+p (R241). -/
def execOraIndY (zp : Byte) (s : State) : Result := readClass (.indY zp) 5 oraA s

/-- ORA ZeroPage,X, $15, 2/4 (R241). -/
def execOraZpX (zp : Byte) (s : State) : Result := readClass (.zpX zp) 4 oraA s

/-- ORA Absolute,Y, $19, 3/4+p (R241). -/
def execOraAbsY (addr : Addr) (s : State) : Result := readClass (.absY addr) 4 oraA s

/-- ORA Absolute,X, $1D, 3/4+p (R241). -/
def execOraAbsX (addr : Addr) (s : State) : Result := readClass (.absX addr) 4 oraA s

/-- EOR (Indirect,X), $41, 2/6 (R242). -/
def execEorIndX (zp : Byte) (s : State) : Result := readClass (.indX zp) 6 eorA s

/-- EOR ZeroPage, $45, 2/3 (R242). -/
def execEorZp (zp : Byte) (s : State) : Result := readClass (.zp zp) 3 eorA s

/-- EOR Immediate, $49, 2/2 (R242). -/
def execEorImm (imm : Byte) (s : State) : Result := readImm imm eorA s

/-- EOR Absolute, $4D, 3/4 (R242). -/
def execEorAbs (addr : Addr) (s : State) : Result := readClass (.abs addr) 4 eorA s

/-- EOR (Indirect),Y, $51, 2/5+p (R242). -/
def execEorIndY (zp : Byte) (s : State) : Result := readClass (.indY zp) 5 eorA s

/-- EOR ZeroPage,X, $55, 2/4 (R242). -/
def execEorZpX (zp : Byte) (s : State) : Result := readClass (.zpX zp) 4 eorA s

/-- EOR Absolute,Y, $59, 3/4+p (R242). -/
def execEorAbsY (addr : Addr) (s : State) : Result := readClass (.absY addr) 4 eorA s

/-- EOR Absolute,X, $5D, 3/4+p (R242). -/
def execEorAbsX (addr : Addr) (s : State) : Result := readClass (.absX addr) 4 eorA s

/-- BIT ZeroPage, $24, 2/3 (R243). -/
def execBitZp (zp : Byte) (s : State) : Result := readClass (.zp zp) 3 bitTest s

/-- BIT Absolute, $2C, 3/4 (R243). -/
def execBitAbs (addr : Addr) (s : State) : Result := readClass (.abs addr) 4 bitTest s

/-- ASL ZeroPage, $06, 2/5 (R245). -/
def execAslZp (zp : Byte) (s : State) : Result := rmwClass (.zp zp) 5 aslByte leftFlags s

/-- ASL Accumulator, $0A, 1/2 (R245). -/
def execAslAcc (s : State) : Result := accClass aslByte leftFlags s

/-- ASL Absolute, $0E, 3/6 (R245). -/
def execAslAbs (addr : Addr) (s : State) : Result := rmwClass (.abs addr) 6 aslByte leftFlags s

/-- ASL ZeroPage,X, $16, 2/6 (R245). -/
def execAslZpX (zp : Byte) (s : State) : Result := rmwClass (.zpX zp) 6 aslByte leftFlags s

/-- ASL Absolute,X, $1E, 3/7 (R245). -/
def execAslAbsX (addr : Addr) (s : State) : Result := rmwClass (.absX addr) 7 aslByte leftFlags s

/-- LSR ZeroPage, $46, 2/5 (R246). -/
def execLsrZp (zp : Byte) (s : State) : Result := rmwClass (.zp zp) 5 lsrByte rightFlags s

/-- LSR Accumulator, $4A, 1/2 (R246). -/
def execLsrAcc (s : State) : Result := accClass lsrByte rightFlags s

/-- LSR Absolute, $4E, 3/6 (R246). -/
def execLsrAbs (addr : Addr) (s : State) : Result := rmwClass (.abs addr) 6 lsrByte rightFlags s

/-- LSR ZeroPage,X, $56, 2/6 (R246). -/
def execLsrZpX (zp : Byte) (s : State) : Result := rmwClass (.zpX zp) 6 lsrByte rightFlags s

/-- LSR Absolute,X, $5E, 3/7 (R246). -/
def execLsrAbsX (addr : Addr) (s : State) : Result := rmwClass (.absX addr) 7 lsrByte rightFlags s

/-- ROL ZeroPage, $26, 2/5 (R247). -/
def execRolZp (zp : Byte) (s : State) : Result := rmwClass (.zp zp) 5 rolByte leftFlags s

/-- ROL Accumulator, $2A, 1/2 (R247). -/
def execRolAcc (s : State) : Result := accClass rolByte leftFlags s

/-- ROL Absolute, $2E, 3/6 (R247). -/
def execRolAbs (addr : Addr) (s : State) : Result := rmwClass (.abs addr) 6 rolByte leftFlags s

/-- ROL ZeroPage,X, $36, 2/6 (R247). -/
def execRolZpX (zp : Byte) (s : State) : Result := rmwClass (.zpX zp) 6 rolByte leftFlags s

/-- ROL Absolute,X, $3E, 3/7 (R247). -/
def execRolAbsX (addr : Addr) (s : State) : Result := rmwClass (.absX addr) 7 rolByte leftFlags s

/-- ROR ZeroPage, $66, 2/5 (R248). -/
def execRorZp (zp : Byte) (s : State) : Result := rmwClass (.zp zp) 5 rorByte rightFlags s

/-- ROR Accumulator, $6A, 1/2 (R248). -/
def execRorAcc (s : State) : Result := accClass rorByte rightFlags s

/-- ROR Absolute, $6E, 3/6 (R248). -/
def execRorAbs (addr : Addr) (s : State) : Result := rmwClass (.abs addr) 6 rorByte rightFlags s

/-- ROR ZeroPage,X, $76, 2/6 (R248). -/
def execRorZpX (zp : Byte) (s : State) : Result := rmwClass (.zpX zp) 6 rorByte rightFlags s

/-- ROR Absolute,X, $7E, 3/7 (R248). -/
def execRorAbsX (addr : Addr) (s : State) : Result := rmwClass (.absX addr) 7 rorByte rightFlags s

end Sys2Proof.Machine
end

