-- ==== Sys2Proof/Machine/Stack.lean ====
section
/-! DEFINITION. PHA, PHP, PLA, PLP (spec/42_stack.md R203 to R206). -/

namespace Sys2Proof.Machine

/-- `Push(A)` (R203). -/
def pushA (s : State) : State := push s.cpu.a s

/-- `Push(P | 0x10)` (R204). -/
def pushP (s : State) : State := push (imageWithB s.cpu.p) s

/-- `A <- Pop(); SetNZ(A)` (R205). -/
def pullA (s : State) : State :=
  let r := pop s
  loadA r.1 r.2

/-- `b <- Pop(); P <- (b & 0xEF) | 0x20` (R206). -/
def pullP (s : State) : State :=
  let r := pop s
  r.2.setP (pulledStatus r.1)

/-- PHA Implicit, $48, 1/3 (R203). -/
def execPha (s : State) : Result := implied 3 pushA s

/-- PHP Implicit, $08, 1/3 (R204). -/
def execPhp (s : State) : Result := implied 3 pushP s

/-- PLA Implicit, $68, 1/4 (R205). -/
def execPla (s : State) : Result := implied 4 pullA s

/-- PLP Implicit, $28, 1/4 (R206). -/
def execPlp (s : State) : Result := implied 4 pullP s

end Sys2Proof.Machine
end

