-- ==== Sys2Proof/Machine/Undocumented.lean ====
section
/-! DEFINITION. The undocumented instructions (spec/46_undocumented.md R300 to R310). -/

namespace Sys2Proof.Machine

/-- The byte SAX stores: `A & X` (R307). -/
def regAandX (s : State) : Byte := s.cpu.a &&& s.cpu.x

/-- NOP ZeroPage, $04, 2/3 (R302). -/
def execNop04 (_zp : Byte) (s : State) : Result := nopClass 2 3 s

/-- NOP Absolute, $0C, 3/4 (R304). -/
def execNop0C (_addr : Addr) (s : State) : Result := nopClass 3 4 s

/-- NOP ZeroPage,X, $14, 2/4 (R303). -/
def execNop14 (_zp : Byte) (s : State) : Result := nopClass 2 4 s

/-- NOP Implicit, $1A, 1/2 (R300). -/
def execNop1A (s : State) : Result := nopClass 1 2 s

/-- NOP Absolute,X, $1C, 3/4+p (R305). -/
def execNop1C (addr : Addr) (s : State) : Result := nopClass 3 (4 + crossPenalty (indexed addr s.cpu.x s).crossed) s

/-- NOP ZeroPage,X, $34, 2/4 (R303). -/
def execNop34 (_zp : Byte) (s : State) : Result := nopClass 2 4 s

/-- NOP Implicit, $3A, 1/2 (R300). -/
def execNop3A (s : State) : Result := nopClass 1 2 s

/-- NOP Absolute,X, $3C, 3/4+p (R305). -/
def execNop3C (addr : Addr) (s : State) : Result := nopClass 3 (4 + crossPenalty (indexed addr s.cpu.x s).crossed) s

/-- NOP ZeroPage, $44, 2/3 (R302). -/
def execNop44 (_zp : Byte) (s : State) : Result := nopClass 2 3 s

/-- NOP ZeroPage,X, $54, 2/4 (R303). -/
def execNop54 (_zp : Byte) (s : State) : Result := nopClass 2 4 s

/-- NOP Implicit, $5A, 1/2 (R300). -/
def execNop5A (s : State) : Result := nopClass 1 2 s

/-- NOP Absolute,X, $5C, 3/4+p (R305). -/
def execNop5C (addr : Addr) (s : State) : Result := nopClass 3 (4 + crossPenalty (indexed addr s.cpu.x s).crossed) s

/-- NOP ZeroPage, $64, 2/3 (R302). -/
def execNop64 (_zp : Byte) (s : State) : Result := nopClass 2 3 s

/-- NOP ZeroPage,X, $74, 2/4 (R303). -/
def execNop74 (_zp : Byte) (s : State) : Result := nopClass 2 4 s

/-- NOP Implicit, $7A, 1/2 (R300). -/
def execNop7A (s : State) : Result := nopClass 1 2 s

/-- NOP Absolute,X, $7C, 3/4+p (R305). -/
def execNop7C (addr : Addr) (s : State) : Result := nopClass 3 (4 + crossPenalty (indexed addr s.cpu.x s).crossed) s

/-- NOP Immediate, $80, 2/2 (R301). -/
def execNop80 (_imm : Byte) (s : State) : Result := nopClass 2 2 s

/-- NOP ZeroPage,X, $D4, 2/4 (R303). -/
def execNopD4 (_zp : Byte) (s : State) : Result := nopClass 2 4 s

/-- NOP Implicit, $DA, 1/2 (R300). -/
def execNopDA (s : State) : Result := nopClass 1 2 s

/-- NOP Absolute,X, $DC, 3/4+p (R305). -/
def execNopDC (addr : Addr) (s : State) : Result := nopClass 3 (4 + crossPenalty (indexed addr s.cpu.x s).crossed) s

/-- NOP ZeroPage,X, $F4, 2/4 (R303). -/
def execNopF4 (_zp : Byte) (s : State) : Result := nopClass 2 4 s

/-- NOP Implicit, $FA, 1/2 (R300). -/
def execNopFA (s : State) : Result := nopClass 1 2 s

/-- NOP Absolute,X, $FC, 3/4+p (R305). -/
def execNopFC (addr : Addr) (s : State) : Result := nopClass 3 (4 + crossPenalty (indexed addr s.cpu.x s).crossed) s

/-- LAX (Indirect,X), $A3, 2/6 (R306). -/
def execLaxIndX (zp : Byte) (s : State) : Result := readClass (.indX zp) 6 loadAX s

/-- LAX ZeroPage, $A7, 2/3 (R306). -/
def execLaxZp (zp : Byte) (s : State) : Result := readClass (.zp zp) 3 loadAX s

/-- LAX Absolute, $AF, 3/4 (R306). -/
def execLaxAbs (addr : Addr) (s : State) : Result := readClass (.abs addr) 4 loadAX s

/-- LAX (Indirect),Y, $B3, 2/5+p (R306). -/
def execLaxIndY (zp : Byte) (s : State) : Result := readClass (.indY zp) 5 loadAX s

/-- LAX ZeroPage,Y, $B7, 2/4 (R306). -/
def execLaxZpY (zp : Byte) (s : State) : Result := readClass (.zpY zp) 4 loadAX s

/-- LAX Absolute,Y, $BF, 3/4+p (R306). -/
def execLaxAbsY (addr : Addr) (s : State) : Result := readClass (.absY addr) 4 loadAX s

/-- SAX (Indirect,X), $83, 2/6 (R307). -/
def execSaxIndX (zp : Byte) (s : State) : Result := writeClass (.indX zp) 6 regAandX s

/-- SAX ZeroPage, $87, 2/3 (R307). -/
def execSaxZp (zp : Byte) (s : State) : Result := writeClass (.zp zp) 3 regAandX s

/-- SAX Absolute, $8F, 3/4 (R307). -/
def execSaxAbs (addr : Addr) (s : State) : Result := writeClass (.abs addr) 4 regAandX s

/-- SAX ZeroPage,Y, $97, 2/4 (R307). -/
def execSaxZpY (zp : Byte) (s : State) : Result := writeClass (.zpY zp) 4 regAandX s

/-- DCM (Indirect,X), $C3, 2/8 (R308). -/
def execDcmIndX (zp : Byte) (s : State) : Result := rmwClass (.indX zp) 8 decByte compareResult s

/-- DCM ZeroPage, $C7, 2/5 (R308). -/
def execDcmZp (zp : Byte) (s : State) : Result := rmwClass (.zp zp) 5 decByte compareResult s

/-- DCM Absolute, $CF, 3/6 (R308). -/
def execDcmAbs (addr : Addr) (s : State) : Result := rmwClass (.abs addr) 6 decByte compareResult s

/-- DCM (Indirect),Y, $D3, 2/8 (R308). -/
def execDcmIndY (zp : Byte) (s : State) : Result := rmwClass (.indY zp) 8 decByte compareResult s

/-- DCM ZeroPage,X, $D7, 2/6 (R308). -/
def execDcmZpX (zp : Byte) (s : State) : Result := rmwClass (.zpX zp) 6 decByte compareResult s

/-- DCM Absolute,Y, $DB, 3/7 (R308). -/
def execDcmAbsY (addr : Addr) (s : State) : Result := rmwClass (.absY addr) 7 decByte compareResult s

/-- DCM Absolute,X, $DF, 3/7 (R308). -/
def execDcmAbsX (addr : Addr) (s : State) : Result := rmwClass (.absX addr) 7 decByte compareResult s

/-- ISB (Indirect,X), $E3, 2/8 (R309). -/
def execIsbIndX (zp : Byte) (s : State) : Result := rmwClass (.indX zp) 8 incByte subtractResult s

/-- ISB ZeroPage, $E7, 2/5 (R309). -/
def execIsbZp (zp : Byte) (s : State) : Result := rmwClass (.zp zp) 5 incByte subtractResult s

/-- ISB Absolute, $EF, 3/6 (R309). -/
def execIsbAbs (addr : Addr) (s : State) : Result := rmwClass (.abs addr) 6 incByte subtractResult s

/-- ISB (Indirect),Y, $F3, 2/8 (R309). -/
def execIsbIndY (zp : Byte) (s : State) : Result := rmwClass (.indY zp) 8 incByte subtractResult s

/-- ISB ZeroPage,X, $F7, 2/6 (R309). -/
def execIsbZpX (zp : Byte) (s : State) : Result := rmwClass (.zpX zp) 6 incByte subtractResult s

/-- ISB Absolute,Y, $FB, 3/7 (R309). -/
def execIsbAbsY (addr : Addr) (s : State) : Result := rmwClass (.absY addr) 7 incByte subtractResult s

/-- ISB Absolute,X, $FF, 3/7 (R309). -/
def execIsbAbsX (addr : Addr) (s : State) : Result := rmwClass (.absX addr) 7 incByte subtractResult s

/-- SBC Immediate, $EB, 2/2 (R310). -/
def execSbcImmEB (imm : Byte) (s : State) : Result := readImm imm sbc s

end Sys2Proof.Machine
end

