-- ==== Sys2Proof/Syntax.lean ====
section
/-! DEFINITION. The instructions: one constructor for each row of spec/opcode_table.json (spec/30_encoding.md R126),
with its assembled operand (R122): `imm` an immediate byte, `zp` a zero-page address byte, `addr` a 16-bit address
or pointer, `off` a signed branch offset. The undocumented NOPs carry their opcode byte in their name. -/

namespace Sys2Proof

/-- One instruction. -/
inductive Instr where
  /-- $00 BRK, Implicit (R282) -/
  | brk
  /-- $01 ORA, (Indirect,X) (R241) -/
  | oraIndX (zp : Byte)
  /-- $04 NOP, ZeroPage (R302) -/
  | nop04 (zp : Byte)
  /-- $05 ORA, ZeroPage (R241) -/
  | oraZp (zp : Byte)
  /-- $06 ASL, ZeroPage (R245) -/
  | aslZp (zp : Byte)
  /-- $08 PHP, Implicit (R204) -/
  | php
  /-- $09 ORA, Immediate (R241) -/
  | oraImm (imm : Byte)
  /-- $0A ASL, Accumulator (R245) -/
  | aslAcc
  /-- $0C NOP, Absolute (R304) -/
  | nop0C (addr : Addr)
  /-- $0D ORA, Absolute (R241) -/
  | oraAbs (addr : Addr)
  /-- $0E ASL, Absolute (R245) -/
  | aslAbs (addr : Addr)
  /-- $10 BPL, Relative (R266) -/
  | bpl (off : Int)
  /-- $11 ORA, (Indirect),Y (R241) -/
  | oraIndY (zp : Byte)
  /-- $14 NOP, ZeroPage,X (R303) -/
  | nop14 (zp : Byte)
  /-- $15 ORA, ZeroPage,X (R241) -/
  | oraZpX (zp : Byte)
  /-- $16 ASL, ZeroPage,X (R245) -/
  | aslZpX (zp : Byte)
  /-- $18 CLC, Implicit (R285) -/
  | clc
  /-- $19 ORA, Absolute,Y (R241) -/
  | oraAbsY (addr : Addr)
  /-- $1A NOP, Implicit (R300) -/
  | nop1A
  /-- $1C NOP, Absolute,X (R305) -/
  | nop1C (addr : Addr)
  /-- $1D ORA, Absolute,X (R241) -/
  | oraAbsX (addr : Addr)
  /-- $1E ASL, Absolute,X (R245) -/
  | aslAbsX (addr : Addr)
  /-- $20 JSR, Absolute (R280) -/
  | jsr (addr : Addr)
  /-- $21 AND, (Indirect,X) (R240) -/
  | andIndX (zp : Byte)
  /-- $24 BIT, ZeroPage (R243) -/
  | bitZp (zp : Byte)
  /-- $25 AND, ZeroPage (R240) -/
  | andZp (zp : Byte)
  /-- $26 ROL, ZeroPage (R247) -/
  | rolZp (zp : Byte)
  /-- $28 PLP, Implicit (R206) -/
  | plp
  /-- $29 AND, Immediate (R240) -/
  | andImm (imm : Byte)
  /-- $2A ROL, Accumulator (R247) -/
  | rolAcc
  /-- $2C BIT, Absolute (R243) -/
  | bitAbs (addr : Addr)
  /-- $2D AND, Absolute (R240) -/
  | andAbs (addr : Addr)
  /-- $2E ROL, Absolute (R247) -/
  | rolAbs (addr : Addr)
  /-- $30 BMI, Relative (R265) -/
  | bmi (off : Int)
  /-- $31 AND, (Indirect),Y (R240) -/
  | andIndY (zp : Byte)
  /-- $34 NOP, ZeroPage,X (R303) -/
  | nop34 (zp : Byte)
  /-- $35 AND, ZeroPage,X (R240) -/
  | andZpX (zp : Byte)
  /-- $36 ROL, ZeroPage,X (R247) -/
  | rolZpX (zp : Byte)
  /-- $38 SEC, Implicit (R286) -/
  | sec
  /-- $39 AND, Absolute,Y (R240) -/
  | andAbsY (addr : Addr)
  /-- $3A NOP, Implicit (R300) -/
  | nop3A
  /-- $3C NOP, Absolute,X (R305) -/
  | nop3C (addr : Addr)
  /-- $3D AND, Absolute,X (R240) -/
  | andAbsX (addr : Addr)
  /-- $3E ROL, Absolute,X (R247) -/
  | rolAbsX (addr : Addr)
  /-- $40 RTI, Implicit (R283) -/
  | rti
  /-- $41 EOR, (Indirect,X) (R242) -/
  | eorIndX (zp : Byte)
  /-- $44 NOP, ZeroPage (R302) -/
  | nop44 (zp : Byte)
  /-- $45 EOR, ZeroPage (R242) -/
  | eorZp (zp : Byte)
  /-- $46 LSR, ZeroPage (R246) -/
  | lsrZp (zp : Byte)
  /-- $48 PHA, Implicit (R203) -/
  | pha
  /-- $49 EOR, Immediate (R242) -/
  | eorImm (imm : Byte)
  /-- $4A LSR, Accumulator (R246) -/
  | lsrAcc
  /-- $4C JMP, Absolute (R278) -/
  | jmpAbs (addr : Addr)
  /-- $4D EOR, Absolute (R242) -/
  | eorAbs (addr : Addr)
  /-- $4E LSR, Absolute (R246) -/
  | lsrAbs (addr : Addr)
  /-- $50 BVC, Relative (R267) -/
  | bvc (off : Int)
  /-- $51 EOR, (Indirect),Y (R242) -/
  | eorIndY (zp : Byte)
  /-- $54 NOP, ZeroPage,X (R303) -/
  | nop54 (zp : Byte)
  /-- $55 EOR, ZeroPage,X (R242) -/
  | eorZpX (zp : Byte)
  /-- $56 LSR, ZeroPage,X (R246) -/
  | lsrZpX (zp : Byte)
  /-- $58 CLI, Implicit (R287) -/
  | cli
  /-- $59 EOR, Absolute,Y (R242) -/
  | eorAbsY (addr : Addr)
  /-- $5A NOP, Implicit (R300) -/
  | nop5A
  /-- $5C NOP, Absolute,X (R305) -/
  | nop5C (addr : Addr)
  /-- $5D EOR, Absolute,X (R242) -/
  | eorAbsX (addr : Addr)
  /-- $5E LSR, Absolute,X (R246) -/
  | lsrAbsX (addr : Addr)
  /-- $60 RTS, Implicit (R281) -/
  | rts
  /-- $61 ADC, (Indirect,X) (R212) -/
  | adcIndX (zp : Byte)
  /-- $64 NOP, ZeroPage (R302) -/
  | nop64 (zp : Byte)
  /-- $65 ADC, ZeroPage (R212) -/
  | adcZp (zp : Byte)
  /-- $66 ROR, ZeroPage (R248) -/
  | rorZp (zp : Byte)
  /-- $68 PLA, Implicit (R205) -/
  | pla
  /-- $69 ADC, Immediate (R212) -/
  | adcImm (imm : Byte)
  /-- $6A ROR, Accumulator (R248) -/
  | rorAcc
  /-- $6C JMP, Indirect (R279) -/
  | jmpInd (addr : Addr)
  /-- $6D ADC, Absolute (R212) -/
  | adcAbs (addr : Addr)
  /-- $6E ROR, Absolute (R248) -/
  | rorAbs (addr : Addr)
  /-- $70 BVS, Relative (R268) -/
  | bvs (off : Int)
  /-- $71 ADC, (Indirect),Y (R212) -/
  | adcIndY (zp : Byte)
  /-- $74 NOP, ZeroPage,X (R303) -/
  | nop74 (zp : Byte)
  /-- $75 ADC, ZeroPage,X (R212) -/
  | adcZpX (zp : Byte)
  /-- $76 ROR, ZeroPage,X (R248) -/
  | rorZpX (zp : Byte)
  /-- $78 SEI, Implicit (R288) -/
  | sei
  /-- $79 ADC, Absolute,Y (R212) -/
  | adcAbsY (addr : Addr)
  /-- $7A NOP, Implicit (R300) -/
  | nop7A
  /-- $7C NOP, Absolute,X (R305) -/
  | nop7C (addr : Addr)
  /-- $7D ADC, Absolute,X (R212) -/
  | adcAbsX (addr : Addr)
  /-- $7E ROR, Absolute,X (R248) -/
  | rorAbsX (addr : Addr)
  /-- $80 NOP, Immediate (R301) -/
  | nop80 (imm : Byte)
  /-- $81 STA, (Indirect,X) (R173) -/
  | staIndX (zp : Byte)
  /-- $83 SAX, (Indirect,X) (R307) -/
  | saxIndX (zp : Byte)
  /-- $84 STY, ZeroPage (R175) -/
  | styZp (zp : Byte)
  /-- $85 STA, ZeroPage (R173) -/
  | staZp (zp : Byte)
  /-- $86 STX, ZeroPage (R174) -/
  | stxZp (zp : Byte)
  /-- $87 SAX, ZeroPage (R307) -/
  | saxZp (zp : Byte)
  /-- $88 DEY, Implicit (R225) -/
  | dey
  /-- $8A TXA, Implicit (R182) -/
  | txa
  /-- $8C STY, Absolute (R175) -/
  | styAbs (addr : Addr)
  /-- $8D STA, Absolute (R173) -/
  | staAbs (addr : Addr)
  /-- $8E STX, Absolute (R174) -/
  | stxAbs (addr : Addr)
  /-- $8F SAX, Absolute (R307) -/
  | saxAbs (addr : Addr)
  /-- $90 BCC, Relative (R261) -/
  | bcc (off : Int)
  /-- $91 STA, (Indirect),Y (R173) -/
  | staIndY (zp : Byte)
  /-- $94 STY, ZeroPage,X (R175) -/
  | styZpX (zp : Byte)
  /-- $95 STA, ZeroPage,X (R173) -/
  | staZpX (zp : Byte)
  /-- $96 STX, ZeroPage,Y (R174) -/
  | stxZpY (zp : Byte)
  /-- $97 SAX, ZeroPage,Y (R307) -/
  | saxZpY (zp : Byte)
  /-- $98 TYA, Implicit (R183) -/
  | tya
  /-- $99 STA, Absolute,Y (R173) -/
  | staAbsY (addr : Addr)
  /-- $9A TXS, Implicit (R187) -/
  | txs
  /-- $9D STA, Absolute,X (R173) -/
  | staAbsX (addr : Addr)
  /-- $A0 LDY, Immediate (R172) -/
  | ldyImm (imm : Byte)
  /-- $A1 LDA, (Indirect,X) (R170) -/
  | ldaIndX (zp : Byte)
  /-- $A2 LDX, Immediate (R171) -/
  | ldxImm (imm : Byte)
  /-- $A3 LAX, (Indirect,X) (R306) -/
  | laxIndX (zp : Byte)
  /-- $A4 LDY, ZeroPage (R172) -/
  | ldyZp (zp : Byte)
  /-- $A5 LDA, ZeroPage (R170) -/
  | ldaZp (zp : Byte)
  /-- $A6 LDX, ZeroPage (R171) -/
  | ldxZp (zp : Byte)
  /-- $A7 LAX, ZeroPage (R306) -/
  | laxZp (zp : Byte)
  /-- $A8 TAY, Implicit (R181) -/
  | tay
  /-- $A9 LDA, Immediate (R170) -/
  | ldaImm (imm : Byte)
  /-- $AA TAX, Implicit (R180) -/
  | tax
  /-- $AC LDY, Absolute (R172) -/
  | ldyAbs (addr : Addr)
  /-- $AD LDA, Absolute (R170) -/
  | ldaAbs (addr : Addr)
  /-- $AE LDX, Absolute (R171) -/
  | ldxAbs (addr : Addr)
  /-- $AF LAX, Absolute (R306) -/
  | laxAbs (addr : Addr)
  /-- $B0 BCS, Relative (R262) -/
  | bcs (off : Int)
  /-- $B1 LDA, (Indirect),Y (R170) -/
  | ldaIndY (zp : Byte)
  /-- $B3 LAX, (Indirect),Y (R306) -/
  | laxIndY (zp : Byte)
  /-- $B4 LDY, ZeroPage,X (R172) -/
  | ldyZpX (zp : Byte)
  /-- $B5 LDA, ZeroPage,X (R170) -/
  | ldaZpX (zp : Byte)
  /-- $B6 LDX, ZeroPage,Y (R171) -/
  | ldxZpY (zp : Byte)
  /-- $B7 LAX, ZeroPage,Y (R306) -/
  | laxZpY (zp : Byte)
  /-- $B8 CLV, Implicit (R291) -/
  | clv
  /-- $B9 LDA, Absolute,Y (R170) -/
  | ldaAbsY (addr : Addr)
  /-- $BA TSX, Implicit (R186) -/
  | tsx
  /-- $BC LDY, Absolute,X (R172) -/
  | ldyAbsX (addr : Addr)
  /-- $BD LDA, Absolute,X (R170) -/
  | ldaAbsX (addr : Addr)
  /-- $BE LDX, Absolute,Y (R171) -/
  | ldxAbsY (addr : Addr)
  /-- $BF LAX, Absolute,Y (R306) -/
  | laxAbsY (addr : Addr)
  /-- $C0 CPY, Immediate (R218) -/
  | cpyImm (imm : Byte)
  /-- $C1 CMP, (Indirect,X) (R216) -/
  | cmpIndX (zp : Byte)
  /-- $C3 DCM, (Indirect,X) (R308) -/
  | dcmIndX (zp : Byte)
  /-- $C4 CPY, ZeroPage (R218) -/
  | cpyZp (zp : Byte)
  /-- $C5 CMP, ZeroPage (R216) -/
  | cmpZp (zp : Byte)
  /-- $C6 DEC, ZeroPage (R223) -/
  | decZp (zp : Byte)
  /-- $C7 DCM, ZeroPage (R308) -/
  | dcmZp (zp : Byte)
  /-- $C8 INY, Implicit (R222) -/
  | iny
  /-- $C9 CMP, Immediate (R216) -/
  | cmpImm (imm : Byte)
  /-- $CA DEX, Implicit (R224) -/
  | dex
  /-- $CC CPY, Absolute (R218) -/
  | cpyAbs (addr : Addr)
  /-- $CD CMP, Absolute (R216) -/
  | cmpAbs (addr : Addr)
  /-- $CE DEC, Absolute (R223) -/
  | decAbs (addr : Addr)
  /-- $CF DCM, Absolute (R308) -/
  | dcmAbs (addr : Addr)
  /-- $D0 BNE, Relative (R264) -/
  | bne (off : Int)
  /-- $D1 CMP, (Indirect),Y (R216) -/
  | cmpIndY (zp : Byte)
  /-- $D3 DCM, (Indirect),Y (R308) -/
  | dcmIndY (zp : Byte)
  /-- $D4 NOP, ZeroPage,X (R303) -/
  | nopD4 (zp : Byte)
  /-- $D5 CMP, ZeroPage,X (R216) -/
  | cmpZpX (zp : Byte)
  /-- $D6 DEC, ZeroPage,X (R223) -/
  | decZpX (zp : Byte)
  /-- $D7 DCM, ZeroPage,X (R308) -/
  | dcmZpX (zp : Byte)
  /-- $D8 CLD, Implicit (R289) -/
  | cld
  /-- $D9 CMP, Absolute,Y (R216) -/
  | cmpAbsY (addr : Addr)
  /-- $DA NOP, Implicit (R300) -/
  | nopDA
  /-- $DB DCM, Absolute,Y (R308) -/
  | dcmAbsY (addr : Addr)
  /-- $DC NOP, Absolute,X (R305) -/
  | nopDC (addr : Addr)
  /-- $DD CMP, Absolute,X (R216) -/
  | cmpAbsX (addr : Addr)
  /-- $DE DEC, Absolute,X (R223) -/
  | decAbsX (addr : Addr)
  /-- $DF DCM, Absolute,X (R308) -/
  | dcmAbsX (addr : Addr)
  /-- $E0 CPX, Immediate (R217) -/
  | cpxImm (imm : Byte)
  /-- $E1 SBC, (Indirect,X) (R214) -/
  | sbcIndX (zp : Byte)
  /-- $E3 ISB, (Indirect,X) (R309) -/
  | isbIndX (zp : Byte)
  /-- $E4 CPX, ZeroPage (R217) -/
  | cpxZp (zp : Byte)
  /-- $E5 SBC, ZeroPage (R214) -/
  | sbcZp (zp : Byte)
  /-- $E6 INC, ZeroPage (R220) -/
  | incZp (zp : Byte)
  /-- $E7 ISB, ZeroPage (R309) -/
  | isbZp (zp : Byte)
  /-- $E8 INX, Implicit (R221) -/
  | inx
  /-- $E9 SBC, Immediate (R214) -/
  | sbcImm (imm : Byte)
  /-- $EA NOP, Implicit (R292) -/
  | nop
  /-- $EB SBC, Immediate (R310) -/
  | sbcImmEB (imm : Byte)
  /-- $EC CPX, Absolute (R217) -/
  | cpxAbs (addr : Addr)
  /-- $ED SBC, Absolute (R214) -/
  | sbcAbs (addr : Addr)
  /-- $EE INC, Absolute (R220) -/
  | incAbs (addr : Addr)
  /-- $EF ISB, Absolute (R309) -/
  | isbAbs (addr : Addr)
  /-- $F0 BEQ, Relative (R263) -/
  | beq (off : Int)
  /-- $F1 SBC, (Indirect),Y (R214) -/
  | sbcIndY (zp : Byte)
  /-- $F3 ISB, (Indirect),Y (R309) -/
  | isbIndY (zp : Byte)
  /-- $F4 NOP, ZeroPage,X (R303) -/
  | nopF4 (zp : Byte)
  /-- $F5 SBC, ZeroPage,X (R214) -/
  | sbcZpX (zp : Byte)
  /-- $F6 INC, ZeroPage,X (R220) -/
  | incZpX (zp : Byte)
  /-- $F7 ISB, ZeroPage,X (R309) -/
  | isbZpX (zp : Byte)
  /-- $F8 SED, Implicit (R290) -/
  | sed
  /-- $F9 SBC, Absolute,Y (R214) -/
  | sbcAbsY (addr : Addr)
  /-- $FA NOP, Implicit (R300) -/
  | nopFA
  /-- $FB ISB, Absolute,Y (R309) -/
  | isbAbsY (addr : Addr)
  /-- $FC NOP, Absolute,X (R305) -/
  | nopFC (addr : Addr)
  /-- $FD SBC, Absolute,X (R214) -/
  | sbcAbsX (addr : Addr)
  /-- $FE INC, Absolute,X (R220) -/
  | incAbsX (addr : Addr)
  /-- $FF ISB, Absolute,X (R309) -/
  | isbAbsX (addr : Addr)
deriving DecidableEq, Repr

end Sys2Proof
end

