-- ==== Sys2Proof/WellFormed.lean ====
section
/-! DEFINITION. Which instructions have an encoding, and which configurations the block accepts. -/

namespace Sys2Proof

/-- A branch offset fits its operand byte: -128..127 (spec/30_encoding.md R122). -/
def offsetFits (off : Int) : Bool := decide (-128 ≤ off) && decide (off ≤ 127)

/-- An instruction has an encoding: only a branch offset can fail to fit (R122). -/
def Instr.wf : Instr → Bool
  | .bpl off | .bmi off | .bvc off | .bvs off | .bcc off | .bcs off | .bne off | .beq off => offsetFits off
  | .brk | .php | .aslAcc | .clc | .nop1A | .plp | .rolAcc | .sec | .nop3A | .rti | .pha | .lsrAcc | .cli
  | .nop5A | .rts | .pla | .rorAcc | .sei | .nop7A | .dey | .txa | .tya | .txs | .tay | .tax | .clv | .tsx | .iny
  | .dex | .cld | .nopDA | .inx | .nop | .sed | .nopFA => true
  | .oraImm _ | .andImm _ | .eorImm _ | .adcImm _ | .nop80 _ | .ldyImm _ | .ldxImm _ | .ldaImm _ | .cpyImm _
  | .cmpImm _ | .cpxImm _ | .sbcImm _ | .sbcImmEB _ => true
  | .oraIndX _ | .nop04 _ | .oraZp _ | .aslZp _ | .oraIndY _ | .nop14 _ | .oraZpX _ | .aslZpX _ | .andIndX _
  | .bitZp _ | .andZp _ | .rolZp _ | .andIndY _ | .nop34 _ | .andZpX _ | .rolZpX _ | .eorIndX _ | .nop44 _
  | .eorZp _ | .lsrZp _ | .eorIndY _ | .nop54 _ | .eorZpX _ | .lsrZpX _ | .adcIndX _ | .nop64 _ | .adcZp _
  | .rorZp _ | .adcIndY _ | .nop74 _ | .adcZpX _ | .rorZpX _ | .staIndX _ | .saxIndX _ | .styZp _ | .staZp _
  | .stxZp _ | .saxZp _ | .staIndY _ | .styZpX _ | .staZpX _ | .stxZpY _ | .saxZpY _ | .ldaIndX _ | .laxIndX _
  | .ldyZp _ | .ldaZp _ | .ldxZp _ | .laxZp _ | .ldaIndY _ | .laxIndY _ | .ldyZpX _ | .ldaZpX _ | .ldxZpY _
  | .laxZpY _ | .cmpIndX _ | .dcmIndX _ | .cpyZp _ | .cmpZp _ | .decZp _ | .dcmZp _ | .cmpIndY _ | .dcmIndY _
  | .nopD4 _ | .cmpZpX _ | .decZpX _ | .dcmZpX _ | .sbcIndX _ | .isbIndX _ | .cpxZp _ | .sbcZp _ | .incZp _
  | .isbZp _ | .sbcIndY _ | .isbIndY _ | .nopF4 _ | .sbcZpX _ | .incZpX _ | .isbZpX _ => true
  | .nop0C _ | .oraAbs _ | .aslAbs _ | .oraAbsY _ | .nop1C _ | .oraAbsX _ | .aslAbsX _ | .jsr _ | .bitAbs _
  | .andAbs _ | .rolAbs _ | .andAbsY _ | .nop3C _ | .andAbsX _ | .rolAbsX _ | .jmpAbs _ | .eorAbs _ | .lsrAbs _
  | .eorAbsY _ | .nop5C _ | .eorAbsX _ | .lsrAbsX _ | .jmpInd _ | .adcAbs _ | .rorAbs _ | .adcAbsY _ | .nop7C _
  | .adcAbsX _ | .rorAbsX _ | .styAbs _ | .staAbs _ | .stxAbs _ | .saxAbs _ | .staAbsY _ | .staAbsX _ | .ldyAbs _
  | .ldaAbs _ | .ldxAbs _ | .laxAbs _ | .ldaAbsY _ | .ldyAbsX _ | .ldaAbsX _ | .ldxAbsY _ | .laxAbsY _
  | .cpyAbs _ | .cmpAbs _ | .decAbs _ | .dcmAbs _ | .cmpAbsY _ | .dcmAbsY _ | .nopDC _ | .cmpAbsX _ | .decAbsX _
  | .dcmAbsX _ | .cpxAbs _ | .sbcAbs _ | .incAbs _ | .isbAbs _ | .sbcAbsY _ | .isbAbsY _ | .nopFC _ | .sbcAbsX _
  | .incAbsX _ | .isbAbsX _ => true

/-- The launch memories have the sizes of the block's memories (spec/10_state.md R42 to R49). -/
def PowerOn.wf (p : PowerOn) : Bool :=
  p.ram.fits 0x800 && p.vram.fits 0x800 && p.oam.fits 0x100 && p.palette.fits 0x20 && p.prgRam.fits 0x2000 &&
    p.flatMem.fits 0x10000

/-- The block accepts the configuration (spec/00_scope.md R9; spec/70_reset_and_hazards.md R440): the ROM has the
size its banks say, the pattern memory 8192 bytes, the system palette 64 entries. Mapper 0 and its two mirrorings
are the only ones the types can express (spec/20_memory.md R88). -/
def Config.wf (c : Config) : Bool :=
  c.prgRom.fits c.prgBanks.size && c.chr.fits 0x2000 && decide (c.systemPalette.length = 64) && c.powerOn.wf

end Sys2Proof
end

