-- ==== Sys2Proof/Decode.lean ====
section
/-! DEFINITION. The opcode table (spec/30_encoding.md R125, R126), the decoder (R120, R121, R127) and, after it, the
encoder, both written from the same table. -/

namespace Sys2Proof

/-- The instruction names of the table (R126). -/
inductive Mnemonic where
  | adc | and | asl | bcc | bcs | beq | bit | bmi | bne | bpl | brk | bvc | bvs | clc | cld | cli | clv
  | cmp | cpx | cpy | dcm | dec | dex | dey | eor | inc | inx | iny | isb | jmp | jsr | lax | lda | ldx
  | ldy | lsr | nop | ora | pha | php | pla | plp | rol | ror | rti | rts | sax | sbc | sec | sed | sei
  | sta | stx | sty | tax | tay | tsx | txa | txs | tya
deriving DecidableEq, Repr

/-- The thirteen addressing modes (spec/40_fetch_decode_addressing.md R160). -/
inductive Mode where
  | implicit | accumulator | immediate | zeroPage | zeroPageX | zeroPageY | relative | absolute | absoluteX | absoluteY
  | indirect | indirectX | indirectY
deriving DecidableEq, Repr

/-- The column "+1 on page cross" of the table (R126). -/
inductive Penalty where
  | no | cross | branch
deriving DecidableEq, Repr

/-- The descriptor of an opcode (R125). -/
structure Row where
  opcode : Byte
  mnemonic : Mnemonic
  mode : Mode
  length : Nat
  cycles : Nat
  penalty : Penalty
  official : Bool
deriving DecidableEq, Repr

/-- The row of the table an instruction stands for (R126). -/
def Instr.row : Instr → Row
  | .brk => ⟨0x00, .brk, .implicit, 1, 7, .no, true⟩
  | .oraIndX _ => ⟨0x01, .ora, .indirectX, 2, 6, .no, true⟩
  | .nop04 _ => ⟨0x04, .nop, .zeroPage, 2, 3, .no, false⟩
  | .oraZp _ => ⟨0x05, .ora, .zeroPage, 2, 3, .no, true⟩
  | .aslZp _ => ⟨0x06, .asl, .zeroPage, 2, 5, .no, true⟩
  | .php => ⟨0x08, .php, .implicit, 1, 3, .no, true⟩
  | .oraImm _ => ⟨0x09, .ora, .immediate, 2, 2, .no, true⟩
  | .aslAcc => ⟨0x0A, .asl, .accumulator, 1, 2, .no, true⟩
  | .nop0C _ => ⟨0x0C, .nop, .absolute, 3, 4, .no, false⟩
  | .oraAbs _ => ⟨0x0D, .ora, .absolute, 3, 4, .no, true⟩
  | .aslAbs _ => ⟨0x0E, .asl, .absolute, 3, 6, .no, true⟩
  | .bpl _ => ⟨0x10, .bpl, .relative, 2, 2, .branch, true⟩
  | .oraIndY _ => ⟨0x11, .ora, .indirectY, 2, 5, .cross, true⟩
  | .nop14 _ => ⟨0x14, .nop, .zeroPageX, 2, 4, .no, false⟩
  | .oraZpX _ => ⟨0x15, .ora, .zeroPageX, 2, 4, .no, true⟩
  | .aslZpX _ => ⟨0x16, .asl, .zeroPageX, 2, 6, .no, true⟩
  | .clc => ⟨0x18, .clc, .implicit, 1, 2, .no, true⟩
  | .oraAbsY _ => ⟨0x19, .ora, .absoluteY, 3, 4, .cross, true⟩
  | .nop1A => ⟨0x1A, .nop, .implicit, 1, 2, .no, false⟩
  | .nop1C _ => ⟨0x1C, .nop, .absoluteX, 3, 4, .cross, false⟩
  | .oraAbsX _ => ⟨0x1D, .ora, .absoluteX, 3, 4, .cross, true⟩
  | .aslAbsX _ => ⟨0x1E, .asl, .absoluteX, 3, 7, .no, true⟩
  | .jsr _ => ⟨0x20, .jsr, .absolute, 3, 6, .no, true⟩
  | .andIndX _ => ⟨0x21, .and, .indirectX, 2, 6, .no, true⟩
  | .bitZp _ => ⟨0x24, .bit, .zeroPage, 2, 3, .no, true⟩
  | .andZp _ => ⟨0x25, .and, .zeroPage, 2, 3, .no, true⟩
  | .rolZp _ => ⟨0x26, .rol, .zeroPage, 2, 5, .no, true⟩
  | .plp => ⟨0x28, .plp, .implicit, 1, 4, .no, true⟩
  | .andImm _ => ⟨0x29, .and, .immediate, 2, 2, .no, true⟩
  | .rolAcc => ⟨0x2A, .rol, .accumulator, 1, 2, .no, true⟩
  | .bitAbs _ => ⟨0x2C, .bit, .absolute, 3, 4, .no, true⟩
  | .andAbs _ => ⟨0x2D, .and, .absolute, 3, 4, .no, true⟩
  | .rolAbs _ => ⟨0x2E, .rol, .absolute, 3, 6, .no, true⟩
  | .bmi _ => ⟨0x30, .bmi, .relative, 2, 2, .branch, true⟩
  | .andIndY _ => ⟨0x31, .and, .indirectY, 2, 5, .cross, true⟩
  | .nop34 _ => ⟨0x34, .nop, .zeroPageX, 2, 4, .no, false⟩
  | .andZpX _ => ⟨0x35, .and, .zeroPageX, 2, 4, .no, true⟩
  | .rolZpX _ => ⟨0x36, .rol, .zeroPageX, 2, 6, .no, true⟩
  | .sec => ⟨0x38, .sec, .implicit, 1, 2, .no, true⟩
  | .andAbsY _ => ⟨0x39, .and, .absoluteY, 3, 4, .cross, true⟩
  | .nop3A => ⟨0x3A, .nop, .implicit, 1, 2, .no, false⟩
  | .nop3C _ => ⟨0x3C, .nop, .absoluteX, 3, 4, .cross, false⟩
  | .andAbsX _ => ⟨0x3D, .and, .absoluteX, 3, 4, .cross, true⟩
  | .rolAbsX _ => ⟨0x3E, .rol, .absoluteX, 3, 7, .no, true⟩
  | .rti => ⟨0x40, .rti, .implicit, 1, 6, .no, true⟩
  | .eorIndX _ => ⟨0x41, .eor, .indirectX, 2, 6, .no, true⟩
  | .nop44 _ => ⟨0x44, .nop, .zeroPage, 2, 3, .no, false⟩
  | .eorZp _ => ⟨0x45, .eor, .zeroPage, 2, 3, .no, true⟩
  | .lsrZp _ => ⟨0x46, .lsr, .zeroPage, 2, 5, .no, true⟩
  | .pha => ⟨0x48, .pha, .implicit, 1, 3, .no, true⟩
  | .eorImm _ => ⟨0x49, .eor, .immediate, 2, 2, .no, true⟩
  | .lsrAcc => ⟨0x4A, .lsr, .accumulator, 1, 2, .no, true⟩
  | .jmpAbs _ => ⟨0x4C, .jmp, .absolute, 3, 3, .no, true⟩
  | .eorAbs _ => ⟨0x4D, .eor, .absolute, 3, 4, .no, true⟩
  | .lsrAbs _ => ⟨0x4E, .lsr, .absolute, 3, 6, .no, true⟩
  | .bvc _ => ⟨0x50, .bvc, .relative, 2, 2, .branch, true⟩
  | .eorIndY _ => ⟨0x51, .eor, .indirectY, 2, 5, .cross, true⟩
  | .nop54 _ => ⟨0x54, .nop, .zeroPageX, 2, 4, .no, false⟩
  | .eorZpX _ => ⟨0x55, .eor, .zeroPageX, 2, 4, .no, true⟩
  | .lsrZpX _ => ⟨0x56, .lsr, .zeroPageX, 2, 6, .no, true⟩
  | .cli => ⟨0x58, .cli, .implicit, 1, 2, .no, true⟩
  | .eorAbsY _ => ⟨0x59, .eor, .absoluteY, 3, 4, .cross, true⟩
  | .nop5A => ⟨0x5A, .nop, .implicit, 1, 2, .no, false⟩
  | .nop5C _ => ⟨0x5C, .nop, .absoluteX, 3, 4, .cross, false⟩
  | .eorAbsX _ => ⟨0x5D, .eor, .absoluteX, 3, 4, .cross, true⟩
  | .lsrAbsX _ => ⟨0x5E, .lsr, .absoluteX, 3, 7, .no, true⟩
  | .rts => ⟨0x60, .rts, .implicit, 1, 6, .no, true⟩
  | .adcIndX _ => ⟨0x61, .adc, .indirectX, 2, 6, .no, true⟩
  | .nop64 _ => ⟨0x64, .nop, .zeroPage, 2, 3, .no, false⟩
  | .adcZp _ => ⟨0x65, .adc, .zeroPage, 2, 3, .no, true⟩
  | .rorZp _ => ⟨0x66, .ror, .zeroPage, 2, 5, .no, true⟩
  | .pla => ⟨0x68, .pla, .implicit, 1, 4, .no, true⟩
  | .adcImm _ => ⟨0x69, .adc, .immediate, 2, 2, .no, true⟩
  | .rorAcc => ⟨0x6A, .ror, .accumulator, 1, 2, .no, true⟩
  | .jmpInd _ => ⟨0x6C, .jmp, .indirect, 3, 5, .no, true⟩
  | .adcAbs _ => ⟨0x6D, .adc, .absolute, 3, 4, .no, true⟩
  | .rorAbs _ => ⟨0x6E, .ror, .absolute, 3, 6, .no, true⟩
  | .bvs _ => ⟨0x70, .bvs, .relative, 2, 2, .branch, true⟩
  | .adcIndY _ => ⟨0x71, .adc, .indirectY, 2, 5, .cross, true⟩
  | .nop74 _ => ⟨0x74, .nop, .zeroPageX, 2, 4, .no, false⟩
  | .adcZpX _ => ⟨0x75, .adc, .zeroPageX, 2, 4, .no, true⟩
  | .rorZpX _ => ⟨0x76, .ror, .zeroPageX, 2, 6, .no, true⟩
  | .sei => ⟨0x78, .sei, .implicit, 1, 2, .no, true⟩
  | .adcAbsY _ => ⟨0x79, .adc, .absoluteY, 3, 4, .cross, true⟩
  | .nop7A => ⟨0x7A, .nop, .implicit, 1, 2, .no, false⟩
  | .nop7C _ => ⟨0x7C, .nop, .absoluteX, 3, 4, .cross, false⟩
  | .adcAbsX _ => ⟨0x7D, .adc, .absoluteX, 3, 4, .cross, true⟩
  | .rorAbsX _ => ⟨0x7E, .ror, .absoluteX, 3, 7, .no, true⟩
  | .nop80 _ => ⟨0x80, .nop, .immediate, 2, 2, .no, false⟩
  | .staIndX _ => ⟨0x81, .sta, .indirectX, 2, 6, .no, true⟩
  | .saxIndX _ => ⟨0x83, .sax, .indirectX, 2, 6, .no, false⟩
  | .styZp _ => ⟨0x84, .sty, .zeroPage, 2, 3, .no, true⟩
  | .staZp _ => ⟨0x85, .sta, .zeroPage, 2, 3, .no, true⟩
  | .stxZp _ => ⟨0x86, .stx, .zeroPage, 2, 3, .no, true⟩
  | .saxZp _ => ⟨0x87, .sax, .zeroPage, 2, 3, .no, false⟩
  | .dey => ⟨0x88, .dey, .implicit, 1, 2, .no, true⟩
  | .txa => ⟨0x8A, .txa, .implicit, 1, 2, .no, true⟩
  | .styAbs _ => ⟨0x8C, .sty, .absolute, 3, 4, .no, true⟩
  | .staAbs _ => ⟨0x8D, .sta, .absolute, 3, 4, .no, true⟩
  | .stxAbs _ => ⟨0x8E, .stx, .absolute, 3, 4, .no, true⟩
  | .saxAbs _ => ⟨0x8F, .sax, .absolute, 3, 4, .no, false⟩
  | .bcc _ => ⟨0x90, .bcc, .relative, 2, 2, .branch, true⟩
  | .staIndY _ => ⟨0x91, .sta, .indirectY, 2, 6, .no, true⟩
  | .styZpX _ => ⟨0x94, .sty, .zeroPageX, 2, 4, .no, true⟩
  | .staZpX _ => ⟨0x95, .sta, .zeroPageX, 2, 4, .no, true⟩
  | .stxZpY _ => ⟨0x96, .stx, .zeroPageY, 2, 4, .no, true⟩
  | .saxZpY _ => ⟨0x97, .sax, .zeroPageY, 2, 4, .no, false⟩
  | .tya => ⟨0x98, .tya, .implicit, 1, 2, .no, true⟩
  | .staAbsY _ => ⟨0x99, .sta, .absoluteY, 3, 5, .no, true⟩
  | .txs => ⟨0x9A, .txs, .implicit, 1, 2, .no, true⟩
  | .staAbsX _ => ⟨0x9D, .sta, .absoluteX, 3, 5, .no, true⟩
  | .ldyImm _ => ⟨0xA0, .ldy, .immediate, 2, 2, .no, true⟩
  | .ldaIndX _ => ⟨0xA1, .lda, .indirectX, 2, 6, .no, true⟩
  | .ldxImm _ => ⟨0xA2, .ldx, .immediate, 2, 2, .no, true⟩
  | .laxIndX _ => ⟨0xA3, .lax, .indirectX, 2, 6, .no, false⟩
  | .ldyZp _ => ⟨0xA4, .ldy, .zeroPage, 2, 3, .no, true⟩
  | .ldaZp _ => ⟨0xA5, .lda, .zeroPage, 2, 3, .no, true⟩
  | .ldxZp _ => ⟨0xA6, .ldx, .zeroPage, 2, 3, .no, true⟩
  | .laxZp _ => ⟨0xA7, .lax, .zeroPage, 2, 3, .no, false⟩
  | .tay => ⟨0xA8, .tay, .implicit, 1, 2, .no, true⟩
  | .ldaImm _ => ⟨0xA9, .lda, .immediate, 2, 2, .no, true⟩
  | .tax => ⟨0xAA, .tax, .implicit, 1, 2, .no, true⟩
  | .ldyAbs _ => ⟨0xAC, .ldy, .absolute, 3, 4, .no, true⟩
  | .ldaAbs _ => ⟨0xAD, .lda, .absolute, 3, 4, .no, true⟩
  | .ldxAbs _ => ⟨0xAE, .ldx, .absolute, 3, 4, .no, true⟩
  | .laxAbs _ => ⟨0xAF, .lax, .absolute, 3, 4, .no, false⟩
  | .bcs _ => ⟨0xB0, .bcs, .relative, 2, 2, .branch, true⟩
  | .ldaIndY _ => ⟨0xB1, .lda, .indirectY, 2, 5, .cross, true⟩
  | .laxIndY _ => ⟨0xB3, .lax, .indirectY, 2, 5, .cross, false⟩
  | .ldyZpX _ => ⟨0xB4, .ldy, .zeroPageX, 2, 4, .no, true⟩
  | .ldaZpX _ => ⟨0xB5, .lda, .zeroPageX, 2, 4, .no, true⟩
  | .ldxZpY _ => ⟨0xB6, .ldx, .zeroPageY, 2, 4, .no, true⟩
  | .laxZpY _ => ⟨0xB7, .lax, .zeroPageY, 2, 4, .no, false⟩
  | .clv => ⟨0xB8, .clv, .implicit, 1, 2, .no, true⟩
  | .ldaAbsY _ => ⟨0xB9, .lda, .absoluteY, 3, 4, .cross, true⟩
  | .tsx => ⟨0xBA, .tsx, .implicit, 1, 2, .no, true⟩
  | .ldyAbsX _ => ⟨0xBC, .ldy, .absoluteX, 3, 4, .cross, true⟩
  | .ldaAbsX _ => ⟨0xBD, .lda, .absoluteX, 3, 4, .cross, true⟩
  | .ldxAbsY _ => ⟨0xBE, .ldx, .absoluteY, 3, 4, .cross, true⟩
  | .laxAbsY _ => ⟨0xBF, .lax, .absoluteY, 3, 4, .cross, false⟩
  | .cpyImm _ => ⟨0xC0, .cpy, .immediate, 2, 2, .no, true⟩
  | .cmpIndX _ => ⟨0xC1, .cmp, .indirectX, 2, 6, .no, true⟩
  | .dcmIndX _ => ⟨0xC3, .dcm, .indirectX, 2, 8, .no, false⟩
  | .cpyZp _ => ⟨0xC4, .cpy, .zeroPage, 2, 3, .no, true⟩
  | .cmpZp _ => ⟨0xC5, .cmp, .zeroPage, 2, 3, .no, true⟩
  | .decZp _ => ⟨0xC6, .dec, .zeroPage, 2, 5, .no, true⟩
  | .dcmZp _ => ⟨0xC7, .dcm, .zeroPage, 2, 5, .no, false⟩
  | .iny => ⟨0xC8, .iny, .implicit, 1, 2, .no, true⟩
  | .cmpImm _ => ⟨0xC9, .cmp, .immediate, 2, 2, .no, true⟩
  | .dex => ⟨0xCA, .dex, .implicit, 1, 2, .no, true⟩
  | .cpyAbs _ => ⟨0xCC, .cpy, .absolute, 3, 4, .no, true⟩
  | .cmpAbs _ => ⟨0xCD, .cmp, .absolute, 3, 4, .no, true⟩
  | .decAbs _ => ⟨0xCE, .dec, .absolute, 3, 6, .no, true⟩
  | .dcmAbs _ => ⟨0xCF, .dcm, .absolute, 3, 6, .no, false⟩
  | .bne _ => ⟨0xD0, .bne, .relative, 2, 2, .branch, true⟩
  | .cmpIndY _ => ⟨0xD1, .cmp, .indirectY, 2, 5, .cross, true⟩
  | .dcmIndY _ => ⟨0xD3, .dcm, .indirectY, 2, 8, .no, false⟩
  | .nopD4 _ => ⟨0xD4, .nop, .zeroPageX, 2, 4, .no, false⟩
  | .cmpZpX _ => ⟨0xD5, .cmp, .zeroPageX, 2, 4, .no, true⟩
  | .decZpX _ => ⟨0xD6, .dec, .zeroPageX, 2, 6, .no, true⟩
  | .dcmZpX _ => ⟨0xD7, .dcm, .zeroPageX, 2, 6, .no, false⟩
  | .cld => ⟨0xD8, .cld, .implicit, 1, 2, .no, true⟩
  | .cmpAbsY _ => ⟨0xD9, .cmp, .absoluteY, 3, 4, .cross, true⟩
  | .nopDA => ⟨0xDA, .nop, .implicit, 1, 2, .no, false⟩
  | .dcmAbsY _ => ⟨0xDB, .dcm, .absoluteY, 3, 7, .no, false⟩
  | .nopDC _ => ⟨0xDC, .nop, .absoluteX, 3, 4, .cross, false⟩
  | .cmpAbsX _ => ⟨0xDD, .cmp, .absoluteX, 3, 4, .cross, true⟩
  | .decAbsX _ => ⟨0xDE, .dec, .absoluteX, 3, 7, .no, true⟩
  | .dcmAbsX _ => ⟨0xDF, .dcm, .absoluteX, 3, 7, .no, false⟩
  | .cpxImm _ => ⟨0xE0, .cpx, .immediate, 2, 2, .no, true⟩
  | .sbcIndX _ => ⟨0xE1, .sbc, .indirectX, 2, 6, .no, true⟩
  | .isbIndX _ => ⟨0xE3, .isb, .indirectX, 2, 8, .no, false⟩
  | .cpxZp _ => ⟨0xE4, .cpx, .zeroPage, 2, 3, .no, true⟩
  | .sbcZp _ => ⟨0xE5, .sbc, .zeroPage, 2, 3, .no, true⟩
  | .incZp _ => ⟨0xE6, .inc, .zeroPage, 2, 5, .no, true⟩
  | .isbZp _ => ⟨0xE7, .isb, .zeroPage, 2, 5, .no, false⟩
  | .inx => ⟨0xE8, .inx, .implicit, 1, 2, .no, true⟩
  | .sbcImm _ => ⟨0xE9, .sbc, .immediate, 2, 2, .no, true⟩
  | .nop => ⟨0xEA, .nop, .implicit, 1, 2, .no, true⟩
  | .sbcImmEB _ => ⟨0xEB, .sbc, .immediate, 2, 2, .no, false⟩
  | .cpxAbs _ => ⟨0xEC, .cpx, .absolute, 3, 4, .no, true⟩
  | .sbcAbs _ => ⟨0xED, .sbc, .absolute, 3, 4, .no, true⟩
  | .incAbs _ => ⟨0xEE, .inc, .absolute, 3, 6, .no, true⟩
  | .isbAbs _ => ⟨0xEF, .isb, .absolute, 3, 6, .no, false⟩
  | .beq _ => ⟨0xF0, .beq, .relative, 2, 2, .branch, true⟩
  | .sbcIndY _ => ⟨0xF1, .sbc, .indirectY, 2, 5, .cross, true⟩
  | .isbIndY _ => ⟨0xF3, .isb, .indirectY, 2, 8, .no, false⟩
  | .nopF4 _ => ⟨0xF4, .nop, .zeroPageX, 2, 4, .no, false⟩
  | .sbcZpX _ => ⟨0xF5, .sbc, .zeroPageX, 2, 4, .no, true⟩
  | .incZpX _ => ⟨0xF6, .inc, .zeroPageX, 2, 6, .no, true⟩
  | .isbZpX _ => ⟨0xF7, .isb, .zeroPageX, 2, 6, .no, false⟩
  | .sed => ⟨0xF8, .sed, .implicit, 1, 2, .no, true⟩
  | .sbcAbsY _ => ⟨0xF9, .sbc, .absoluteY, 3, 4, .cross, true⟩
  | .nopFA => ⟨0xFA, .nop, .implicit, 1, 2, .no, false⟩
  | .isbAbsY _ => ⟨0xFB, .isb, .absoluteY, 3, 7, .no, false⟩
  | .nopFC _ => ⟨0xFC, .nop, .absoluteX, 3, 4, .cross, false⟩
  | .sbcAbsX _ => ⟨0xFD, .sbc, .absoluteX, 3, 4, .cross, true⟩
  | .incAbsX _ => ⟨0xFE, .inc, .absoluteX, 3, 7, .no, true⟩
  | .isbAbsX _ => ⟨0xFF, .isb, .absoluteX, 3, 7, .no, false⟩

/-! ### Decoder: by table lookup on all eight bits of the opcode byte (R121), one function for each row of the grid R131.
`b1` and `b2` are the operand bytes, where the instruction has them. -/

/-- Opcodes $0x of the grid (R131). -/
def decodeRow0 (lo : Nat) (b1 b2 : Byte) : Option Instr :=
  match lo with
  | 0x0 => some .brk
  | 0x1 => some (.oraIndX b1)
  | 0x4 => some (.nop04 b1)
  | 0x5 => some (.oraZp b1)
  | 0x6 => some (.aslZp b1)
  | 0x8 => some .php
  | 0x9 => some (.oraImm b1)
  | 0xA => some .aslAcc
  | 0xC => some (.nop0C (word b2 b1))
  | 0xD => some (.oraAbs (word b2 b1))
  | 0xE => some (.aslAbs (word b2 b1))
  | _ => none

/-- Opcodes $1x of the grid (R131). -/
def decodeRow1 (lo : Nat) (b1 b2 : Byte) : Option Instr :=
  match lo with
  | 0x0 => some (.bpl b1.toInt)
  | 0x1 => some (.oraIndY b1)
  | 0x4 => some (.nop14 b1)
  | 0x5 => some (.oraZpX b1)
  | 0x6 => some (.aslZpX b1)
  | 0x8 => some .clc
  | 0x9 => some (.oraAbsY (word b2 b1))
  | 0xA => some .nop1A
  | 0xC => some (.nop1C (word b2 b1))
  | 0xD => some (.oraAbsX (word b2 b1))
  | 0xE => some (.aslAbsX (word b2 b1))
  | _ => none

/-- Opcodes $2x of the grid (R131). -/
def decodeRow2 (lo : Nat) (b1 b2 : Byte) : Option Instr :=
  match lo with
  | 0x0 => some (.jsr (word b2 b1))
  | 0x1 => some (.andIndX b1)
  | 0x4 => some (.bitZp b1)
  | 0x5 => some (.andZp b1)
  | 0x6 => some (.rolZp b1)
  | 0x8 => some .plp
  | 0x9 => some (.andImm b1)
  | 0xA => some .rolAcc
  | 0xC => some (.bitAbs (word b2 b1))
  | 0xD => some (.andAbs (word b2 b1))
  | 0xE => some (.rolAbs (word b2 b1))
  | _ => none

/-- Opcodes $3x of the grid (R131). -/
def decodeRow3 (lo : Nat) (b1 b2 : Byte) : Option Instr :=
  match lo with
  | 0x0 => some (.bmi b1.toInt)
  | 0x1 => some (.andIndY b1)
  | 0x4 => some (.nop34 b1)
  | 0x5 => some (.andZpX b1)
  | 0x6 => some (.rolZpX b1)
  | 0x8 => some .sec
  | 0x9 => some (.andAbsY (word b2 b1))
  | 0xA => some .nop3A
  | 0xC => some (.nop3C (word b2 b1))
  | 0xD => some (.andAbsX (word b2 b1))
  | 0xE => some (.rolAbsX (word b2 b1))
  | _ => none

/-- Opcodes $4x of the grid (R131). -/
def decodeRow4 (lo : Nat) (b1 b2 : Byte) : Option Instr :=
  match lo with
  | 0x0 => some .rti
  | 0x1 => some (.eorIndX b1)
  | 0x4 => some (.nop44 b1)
  | 0x5 => some (.eorZp b1)
  | 0x6 => some (.lsrZp b1)
  | 0x8 => some .pha
  | 0x9 => some (.eorImm b1)
  | 0xA => some .lsrAcc
  | 0xC => some (.jmpAbs (word b2 b1))
  | 0xD => some (.eorAbs (word b2 b1))
  | 0xE => some (.lsrAbs (word b2 b1))
  | _ => none

/-- Opcodes $5x of the grid (R131). -/
def decodeRow5 (lo : Nat) (b1 b2 : Byte) : Option Instr :=
  match lo with
  | 0x0 => some (.bvc b1.toInt)
  | 0x1 => some (.eorIndY b1)
  | 0x4 => some (.nop54 b1)
  | 0x5 => some (.eorZpX b1)
  | 0x6 => some (.lsrZpX b1)
  | 0x8 => some .cli
  | 0x9 => some (.eorAbsY (word b2 b1))
  | 0xA => some .nop5A
  | 0xC => some (.nop5C (word b2 b1))
  | 0xD => some (.eorAbsX (word b2 b1))
  | 0xE => some (.lsrAbsX (word b2 b1))
  | _ => none

/-- Opcodes $6x of the grid (R131). -/
def decodeRow6 (lo : Nat) (b1 b2 : Byte) : Option Instr :=
  match lo with
  | 0x0 => some .rts
  | 0x1 => some (.adcIndX b1)
  | 0x4 => some (.nop64 b1)
  | 0x5 => some (.adcZp b1)
  | 0x6 => some (.rorZp b1)
  | 0x8 => some .pla
  | 0x9 => some (.adcImm b1)
  | 0xA => some .rorAcc
  | 0xC => some (.jmpInd (word b2 b1))
  | 0xD => some (.adcAbs (word b2 b1))
  | 0xE => some (.rorAbs (word b2 b1))
  | _ => none

/-- Opcodes $7x of the grid (R131). -/
def decodeRow7 (lo : Nat) (b1 b2 : Byte) : Option Instr :=
  match lo with
  | 0x0 => some (.bvs b1.toInt)
  | 0x1 => some (.adcIndY b1)
  | 0x4 => some (.nop74 b1)
  | 0x5 => some (.adcZpX b1)
  | 0x6 => some (.rorZpX b1)
  | 0x8 => some .sei
  | 0x9 => some (.adcAbsY (word b2 b1))
  | 0xA => some .nop7A
  | 0xC => some (.nop7C (word b2 b1))
  | 0xD => some (.adcAbsX (word b2 b1))
  | 0xE => some (.rorAbsX (word b2 b1))
  | _ => none

/-- Opcodes $8x of the grid (R131). -/
def decodeRow8 (lo : Nat) (b1 b2 : Byte) : Option Instr :=
  match lo with
  | 0x0 => some (.nop80 b1)
  | 0x1 => some (.staIndX b1)
  | 0x3 => some (.saxIndX b1)
  | 0x4 => some (.styZp b1)
  | 0x5 => some (.staZp b1)
  | 0x6 => some (.stxZp b1)
  | 0x7 => some (.saxZp b1)
  | 0x8 => some .dey
  | 0xA => some .txa
  | 0xC => some (.styAbs (word b2 b1))
  | 0xD => some (.staAbs (word b2 b1))
  | 0xE => some (.stxAbs (word b2 b1))
  | 0xF => some (.saxAbs (word b2 b1))
  | _ => none

/-- Opcodes $9x of the grid (R131). -/
def decodeRow9 (lo : Nat) (b1 b2 : Byte) : Option Instr :=
  match lo with
  | 0x0 => some (.bcc b1.toInt)
  | 0x1 => some (.staIndY b1)
  | 0x4 => some (.styZpX b1)
  | 0x5 => some (.staZpX b1)
  | 0x6 => some (.stxZpY b1)
  | 0x7 => some (.saxZpY b1)
  | 0x8 => some .tya
  | 0x9 => some (.staAbsY (word b2 b1))
  | 0xA => some .txs
  | 0xD => some (.staAbsX (word b2 b1))
  | _ => none

/-- Opcodes $Ax of the grid (R131). -/
def decodeRowA (lo : Nat) (b1 b2 : Byte) : Option Instr :=
  match lo with
  | 0x0 => some (.ldyImm b1)
  | 0x1 => some (.ldaIndX b1)
  | 0x2 => some (.ldxImm b1)
  | 0x3 => some (.laxIndX b1)
  | 0x4 => some (.ldyZp b1)
  | 0x5 => some (.ldaZp b1)
  | 0x6 => some (.ldxZp b1)
  | 0x7 => some (.laxZp b1)
  | 0x8 => some .tay
  | 0x9 => some (.ldaImm b1)
  | 0xA => some .tax
  | 0xC => some (.ldyAbs (word b2 b1))
  | 0xD => some (.ldaAbs (word b2 b1))
  | 0xE => some (.ldxAbs (word b2 b1))
  | 0xF => some (.laxAbs (word b2 b1))
  | _ => none

/-- Opcodes $Bx of the grid (R131). -/
def decodeRowB (lo : Nat) (b1 b2 : Byte) : Option Instr :=
  match lo with
  | 0x0 => some (.bcs b1.toInt)
  | 0x1 => some (.ldaIndY b1)
  | 0x3 => some (.laxIndY b1)
  | 0x4 => some (.ldyZpX b1)
  | 0x5 => some (.ldaZpX b1)
  | 0x6 => some (.ldxZpY b1)
  | 0x7 => some (.laxZpY b1)
  | 0x8 => some .clv
  | 0x9 => some (.ldaAbsY (word b2 b1))
  | 0xA => some .tsx
  | 0xC => some (.ldyAbsX (word b2 b1))
  | 0xD => some (.ldaAbsX (word b2 b1))
  | 0xE => some (.ldxAbsY (word b2 b1))
  | 0xF => some (.laxAbsY (word b2 b1))
  | _ => none

/-- Opcodes $Cx of the grid (R131). -/
def decodeRowC (lo : Nat) (b1 b2 : Byte) : Option Instr :=
  match lo with
  | 0x0 => some (.cpyImm b1)
  | 0x1 => some (.cmpIndX b1)
  | 0x3 => some (.dcmIndX b1)
  | 0x4 => some (.cpyZp b1)
  | 0x5 => some (.cmpZp b1)
  | 0x6 => some (.decZp b1)
  | 0x7 => some (.dcmZp b1)
  | 0x8 => some .iny
  | 0x9 => some (.cmpImm b1)
  | 0xA => some .dex
  | 0xC => some (.cpyAbs (word b2 b1))
  | 0xD => some (.cmpAbs (word b2 b1))
  | 0xE => some (.decAbs (word b2 b1))
  | 0xF => some (.dcmAbs (word b2 b1))
  | _ => none

/-- Opcodes $Dx of the grid (R131). -/
def decodeRowD (lo : Nat) (b1 b2 : Byte) : Option Instr :=
  match lo with
  | 0x0 => some (.bne b1.toInt)
  | 0x1 => some (.cmpIndY b1)
  | 0x3 => some (.dcmIndY b1)
  | 0x4 => some (.nopD4 b1)
  | 0x5 => some (.cmpZpX b1)
  | 0x6 => some (.decZpX b1)
  | 0x7 => some (.dcmZpX b1)
  | 0x8 => some .cld
  | 0x9 => some (.cmpAbsY (word b2 b1))
  | 0xA => some .nopDA
  | 0xB => some (.dcmAbsY (word b2 b1))
  | 0xC => some (.nopDC (word b2 b1))
  | 0xD => some (.cmpAbsX (word b2 b1))
  | 0xE => some (.decAbsX (word b2 b1))
  | 0xF => some (.dcmAbsX (word b2 b1))
  | _ => none

/-- Opcodes $Ex of the grid (R131). -/
def decodeRowE (lo : Nat) (b1 b2 : Byte) : Option Instr :=
  match lo with
  | 0x0 => some (.cpxImm b1)
  | 0x1 => some (.sbcIndX b1)
  | 0x3 => some (.isbIndX b1)
  | 0x4 => some (.cpxZp b1)
  | 0x5 => some (.sbcZp b1)
  | 0x6 => some (.incZp b1)
  | 0x7 => some (.isbZp b1)
  | 0x8 => some .inx
  | 0x9 => some (.sbcImm b1)
  | 0xA => some .nop
  | 0xB => some (.sbcImmEB b1)
  | 0xC => some (.cpxAbs (word b2 b1))
  | 0xD => some (.sbcAbs (word b2 b1))
  | 0xE => some (.incAbs (word b2 b1))
  | 0xF => some (.isbAbs (word b2 b1))
  | _ => none

/-- Opcodes $Fx of the grid (R131). -/
def decodeRowF (lo : Nat) (b1 b2 : Byte) : Option Instr :=
  match lo with
  | 0x0 => some (.beq b1.toInt)
  | 0x1 => some (.sbcIndY b1)
  | 0x3 => some (.isbIndY b1)
  | 0x4 => some (.nopF4 b1)
  | 0x5 => some (.sbcZpX b1)
  | 0x6 => some (.incZpX b1)
  | 0x7 => some (.isbZpX b1)
  | 0x8 => some .sed
  | 0x9 => some (.sbcAbsY (word b2 b1))
  | 0xA => some .nopFA
  | 0xB => some (.isbAbsY (word b2 b1))
  | 0xC => some (.nopFC (word b2 b1))
  | 0xD => some (.sbcAbsX (word b2 b1))
  | 0xE => some (.incAbsX (word b2 b1))
  | 0xF => some (.isbAbsX (word b2 b1))
  | _ => none

/-- The instruction an opcode byte and its operand bytes stand for; `none` for the 57 illegal bytes (R127). -/
def instrOf (op b1 b2 : Byte) : Option Instr :=
  match op.toNat / 16 with
  | 0x0 => decodeRow0 (op.toNat % 16) b1 b2
  | 0x1 => decodeRow1 (op.toNat % 16) b1 b2
  | 0x2 => decodeRow2 (op.toNat % 16) b1 b2
  | 0x3 => decodeRow3 (op.toNat % 16) b1 b2
  | 0x4 => decodeRow4 (op.toNat % 16) b1 b2
  | 0x5 => decodeRow5 (op.toNat % 16) b1 b2
  | 0x6 => decodeRow6 (op.toNat % 16) b1 b2
  | 0x7 => decodeRow7 (op.toNat % 16) b1 b2
  | 0x8 => decodeRow8 (op.toNat % 16) b1 b2
  | 0x9 => decodeRow9 (op.toNat % 16) b1 b2
  | 0xA => decodeRowA (op.toNat % 16) b1 b2
  | 0xB => decodeRowB (op.toNat % 16) b1 b2
  | 0xC => decodeRowC (op.toNat % 16) b1 b2
  | 0xD => decodeRowD (op.toNat % 16) b1 b2
  | 0xE => decodeRowE (op.toNat % 16) b1 b2
  | 0xF => decodeRowF (op.toNat % 16) b1 b2
  | _ => none

/-- The length of the instruction an opcode byte starts (R120); 1 for an illegal byte, which is all that is fetched of it. -/
def lengthOf (op : Byte) : Nat :=
  match instrOf op 0 0 with
  | some i => i.row.length
  | none => 1

/-- Why bytes are no instruction. -/
inductive DecodeError where
  /-- no row of the table (R127) -/
  | invalidInstruction (op : Byte)
  /-- fewer bytes than the opcode's length (the decoder's own: a CPU can always fetch the next byte) -/
  | truncated
deriving DecidableEq, Repr

/-- Decode the instruction at the head of a list of bytes, and give the bytes after it. -/
def decode (bytes : List Byte) : Except DecodeError (Instr × List Byte) :=
  match bytes with
  | [] => .error .truncated
  | op :: rest =>
    match lengthOf op, rest with
    | 3, b1 :: b2 :: tail => finish op b1 b2 tail
    | 2, b1 :: tail => finish op b1 0 tail
    | 1, tail => finish op 0 0 tail
    | _, _ => .error .truncated
where
  /-- The table's answer, or the rejection by name. -/
  finish (op b1 b2 : Byte) (tail : List Byte) : Except DecodeError (Instr × List Byte) :=
    match instrOf op b1 b2 with
    | some i => .ok (i, tail)
    | none => .error (.invalidInstruction op)

/-! ### Encoder -/

/-- The operand bytes (R121, R122): low byte first. -/
def Instr.operandBytes : Instr → List Byte
  | .brk | .php | .aslAcc | .clc | .nop1A | .plp | .rolAcc | .sec | .nop3A | .rti | .pha | .lsrAcc | .cli
  | .nop5A | .rts | .pla | .rorAcc | .sei | .nop7A | .dey | .txa | .tya | .txs | .tay | .tax | .clv | .tsx | .iny
  | .dex | .cld | .nopDA | .inx | .nop | .sed | .nopFA => []
  | .bpl off | .bmi off | .bvc off | .bvs off | .bcc off | .bcs off | .bne off | .beq off => [BitVec.ofInt 8 off]
  | .oraImm imm | .andImm imm | .eorImm imm | .adcImm imm | .nop80 imm | .ldyImm imm | .ldxImm imm | .ldaImm imm
  | .cpyImm imm | .cmpImm imm | .cpxImm imm | .sbcImm imm | .sbcImmEB imm => [imm]
  | .oraIndX zp | .nop04 zp | .oraZp zp | .aslZp zp | .oraIndY zp | .nop14 zp | .oraZpX zp | .aslZpX zp
  | .andIndX zp | .bitZp zp | .andZp zp | .rolZp zp | .andIndY zp | .nop34 zp | .andZpX zp | .rolZpX zp
  | .eorIndX zp | .nop44 zp | .eorZp zp | .lsrZp zp | .eorIndY zp | .nop54 zp | .eorZpX zp | .lsrZpX zp
  | .adcIndX zp | .nop64 zp | .adcZp zp | .rorZp zp | .adcIndY zp | .nop74 zp | .adcZpX zp | .rorZpX zp
  | .staIndX zp | .saxIndX zp | .styZp zp | .staZp zp | .stxZp zp | .saxZp zp | .staIndY zp | .styZpX zp
  | .staZpX zp | .stxZpY zp | .saxZpY zp | .ldaIndX zp | .laxIndX zp | .ldyZp zp | .ldaZp zp | .ldxZp zp
  | .laxZp zp | .ldaIndY zp | .laxIndY zp | .ldyZpX zp | .ldaZpX zp | .ldxZpY zp | .laxZpY zp | .cmpIndX zp
  | .dcmIndX zp | .cpyZp zp | .cmpZp zp | .decZp zp | .dcmZp zp | .cmpIndY zp | .dcmIndY zp | .nopD4 zp
  | .cmpZpX zp | .decZpX zp | .dcmZpX zp | .sbcIndX zp | .isbIndX zp | .cpxZp zp | .sbcZp zp | .incZp zp
  | .isbZp zp | .sbcIndY zp | .isbIndY zp | .nopF4 zp | .sbcZpX zp | .incZpX zp | .isbZpX zp => [zp]
  | .nop0C addr | .oraAbs addr | .aslAbs addr | .oraAbsY addr | .nop1C addr | .oraAbsX addr | .aslAbsX addr
  | .jsr addr | .bitAbs addr | .andAbs addr | .rolAbs addr | .andAbsY addr | .nop3C addr | .andAbsX addr
  | .rolAbsX addr | .jmpAbs addr | .eorAbs addr | .lsrAbs addr | .eorAbsY addr | .nop5C addr | .eorAbsX addr
  | .lsrAbsX addr | .jmpInd addr | .adcAbs addr | .rorAbs addr | .adcAbsY addr | .nop7C addr | .adcAbsX addr
  | .rorAbsX addr | .styAbs addr | .staAbs addr | .stxAbs addr | .saxAbs addr | .staAbsY addr | .staAbsX addr
  | .ldyAbs addr | .ldaAbs addr | .ldxAbs addr | .laxAbs addr | .ldaAbsY addr | .ldyAbsX addr | .ldaAbsX addr
  | .ldxAbsY addr | .laxAbsY addr | .cpyAbs addr | .cmpAbs addr | .decAbs addr | .dcmAbs addr | .cmpAbsY addr
  | .dcmAbsY addr | .nopDC addr | .cmpAbsX addr | .decAbsX addr | .dcmAbsX addr | .cpxAbs addr | .sbcAbs addr
  | .incAbs addr | .isbAbs addr | .sbcAbsY addr | .isbAbsY addr | .nopFC addr | .sbcAbsX addr | .incAbsX addr
  | .isbAbsX addr => [loByte addr, hiByte addr]

/-- The bytes of an instruction: its opcode, then its operand (R120, R121). -/
def encode (i : Instr) : List Byte := i.row.opcode :: i.operandBytes

/-! ### The host's numbering -/

/-- The first three bytes of a table word of `nbits` bits: bit 0 is the least significant bit of the first byte,
and the bits above `nbits` are zero. -/
def tableBytes (nbits w : Nat) : List Byte :=
  let v := w % 2 ^ nbits
  [BitVec.ofNat 8 v, BitVec.ofNat 8 (v / 0x100), BitVec.ofNat 8 (v / 0x10000)]

/-- The instruction the decoder reads from a table word. -/
def decodeTableWord (nbits w : Nat) : Option Instr :=
  match decode (tableBytes nbits w) with
  | .ok (i, _) => some i
  | .error _ => none

end Sys2Proof
end

