-- ==== Sys2Proof/Machine/Fetch.lean ====
section
/-! DEFINITION. Fetching an instruction's bytes through the bus (spec/40_fetch_decode_addressing.md R140, R141), and
placing an instruction's bytes where the next step fetches it. -/

namespace Sys2Proof.Machine

/-- The bytes of one fetch (0 where the instruction has no such byte) and the state after the reads. -/
structure Fetched where
  op : Byte
  b1 : Byte
  b2 : Byte
  st : State
deriving DecidableEq, Repr

/-- Opcode, then the operand bytes the length asks for, in ascending order, each exactly once; an illegal byte is
fetched alone (R140, R141; 20_memory.md R95). -/
def fetch (s : State) : Fetched :=
  let op := memRead s.cpu.pc s
  match lengthOf op.1 with
  | 3 =>
    let b1 := memRead (s.cpu.pc + 1) op.2
    let b2 := memRead (s.cpu.pc + 2) b1.2
    ⟨op.1, b1.1, b2.1, b2.2⟩
  | 2 =>
    let b1 := memRead (s.cpu.pc + 1) op.2
    ⟨op.1, b1.1, 0, b1.2⟩
  | _ => ⟨op.1, 0, 0, op.2⟩

/-- The bytes a fetch read. -/
def fetchedBytes (f : Fetched) : List Byte :=
  match lengthOf f.op with
  | 3 => [f.op, f.b1, f.b2]
  | 2 => [f.op, f.b1]
  | _ => [f.op]

/-! ### Loading from outside -/

/-- The bus address is a cell that keeps a byte: RAM, PRG-RAM, the cartridge's ROM, the flat RAM. -/
def storable (c : Config) (a : Addr) : Bool :=
  match route c a with
  | .flat _ | .ram _ | .prgRam _ | .prgRom _ => true
  | .ppuPort _ | .dmaPort | .zero => false

/-- Put a byte in the cell at a bus address from outside the machine: a ROM cell is the cartridge's (log entry 7). -/
def placeByte (a : Addr) (b : Byte) (s : State) : State :=
  match route s.cfg a with
  | .flat i => s.setFlatMem (s.flatMem.write i b)
  | .ram i => s.setRam (s.ram.write i b)
  | .prgRam i => s.setPrgRam (s.prgRam.write i b)
  | .prgRom i => { s with cfg := { s.cfg with prgRom := s.cfg.prgRom.write i b } }
  | .ppuPort _ | .dmaPort | .zero => s

/-- Put bytes at ascending addresses. -/
def placeBytes : List Byte → Addr → State → State
  | [], _, s => s
  | b :: rest, a, s => placeBytes rest (a + 1) (placeByte a b s)

/-- Where an instruction of up to three bytes is placed: at `PC` if the three cells keep a byte, else $0200. -/
def placeAddr (s : State) : Addr :=
  if storable s.cfg s.cpu.pc && storable s.cfg (s.cpu.pc + 1) && storable s.cfg (s.cpu.pc + 2) then s.cpu.pc else 0x0200

/-- The dot from which the next tick raises no NMI: (241, 1) with NMI enabled is passed over (R353). -/
def quietDot (u : Ppu) : Ppu :=
  if u.scanline = 241 ∧ u.dot = 1 ∧ u.ctrl.getLsbD 7 = true then { u with dot := 2 } else u

/-- A state whose next step fetches: a CPU tick (R390), no debt, nothing pending, no fault (R392, R140). -/
def readyToFetch (s : State) : State :=
  ((((s.setPpu (quietDot s.ppu)).setCycles 0).setPending none).setFault none).setTickCount ((s.tickCount + 2) / 3 * 3)

/-- An instruction's bytes placed where the very next step fetches. -/
def placeInstruction (bytes : List Byte) (s : State) : State :=
  let t := (readyToFetch s).setPc (placeAddr s)
  placeBytes bytes t.cpu.pc t

end Sys2Proof.Machine
end

