-- ==== Sys2Proof/Machine/PpuDot.lean ====
section
/-! DEFINITION. The PPU's dot machine: one tick is one dot (spec/48_ppu_dot_machine.md R350 to R375). -/

namespace Sys2Proof.Machine

/-- Rendering enabled: `(mask & 0x18) != 0` (R351; 10_state.md R33). -/
def rendering (u : Ppu) : Bool := (u.mask &&& 0x18) != 0

/-- Scanlines 0 to 239 (R350). -/
def visibleLine (sl : Nat) : Bool := decide (sl ≤ 239)

/-- Scanline 261 (R350). -/
def prerenderLine (sl : Nat) : Bool := decide (sl = 261)

/-- Dots 1 to 256 and 321 to 336 (R350). -/
def fetchDot (d : Nat) : Bool := (decide (1 ≤ d) && decide (d ≤ 256)) || (decide (321 ≤ d) && decide (d ≤ 336))

/-! ### Flag events -/

/-- Pre-render flag clear (R352). -/
def clearFlags (s : State) : State := s.setPpu { s.ppu with status := s.ppu.status &&& 0x1F }

/-- VBLANK start, and NMI when enabled (R353). -/
def startVblank (s : State) : State :=
  let t := s.setPpu { s.ppu with status := s.ppu.status ||| 0x80 }
  if s.ppu.ctrl.getLsbD 7 then triggerNmi t else t

/-! ### Pixel production -/

/-- The two-bit value at `bit` of a pair of shifters (R370). -/
def shifterBits (hi lo : BitVec 16) (bit : Nat) : BitVec 2 := BitVec.ofBool (hi.getLsbD bit) ++ BitVec.ofBool (lo.getLsbD bit)

/-- The palette address of the pixel (R370); the backdrop $3F00 when the background is off (D8). -/
def pixelAddr (u : Ppu) : Addr :=
  if u.mask.getLsbD 3 then
    let bit := 15 - u.x.toNat
    0x3F00#16 + (((shifterBits u.attrHi u.attrLo bit).setWidth 16 <<< 2) + (shifterBits u.patHi u.patLo bit).setWidth 16)
  else 0x3F00

/-- The colour index of the pixel: palette byte, greyscale, six bits (R371, D22). -/
def pixelColour (u : Ppu) : BitVec 6 :=
  let b := u.palette.read (palIndex (pixelAddr u))
  (if u.mask.getLsbD 0 then b &&& 0x30 else b).setWidth 6

/-- `ProducePixel(sl, d)` (R370 to R372). -/
def producePixel (sl d : Nat) (s : State) : State :=
  s.setPpu { s.ppu with framebuffer := s.ppu.framebuffer.write ((d - 1) + sl * 256) (pixelColour s.ppu) }

/-! ### Background fetch pipeline -/

/-- `ShiftShifters()` (R360). -/
def shiftShifters (u : Ppu) : Ppu :=
  { u with patLo := u.patLo <<< 1, patHi := u.patHi <<< 1, attrLo := u.attrLo <<< 1, attrHi := u.attrHi <<< 1 }

/-- The nametable address (R362). -/
def nametableAddr (v : BitVec 15) : Addr := 0x2000#16 ||| (v.setWidth 16 &&& 0x0FFF#16)

/-- The attribute address (R363). -/
def attributeAddr (v : BitVec 15) : Addr :=
  0x23C0#16 ||| (v.setWidth 16 &&& 0x0C00#16) ||| (((coarseY v).setWidth 16 >>> 2) <<< 3) ||| ((coarseX v).setWidth 16 >>> 2)

/-- The palette selector of the tile inside its attribute byte (R363, D23). -/
def attributeBits (v : BitVec 15) (b : Byte) : Byte :=
  let b := if (coarseY v).getLsbD 1 then b >>> 4 else b
  let b := if (coarseX v).getLsbD 1 then b >>> 2 else b
  b &&& 0x03

/-- The address of a pattern byte's low plane (R364). -/
def patternAddr (u : Ppu) : Addr :=
  (if u.ctrl.getLsbD 4 then 0x1000#16 else 0#16) + (u.nextTileId.setWidth 16 <<< 4) + (fineY u.v).setWidth 16

/-- Attribute shifters are filled with 0xFF or 0x00 (R366). -/
def fillByte (b : Bool) : BitVec 16 := if b then 0x00FF else 0

/-- Shifter load (R366). -/
def loadShifters (u : Ppu) : Ppu :=
  { u with
    patLo := (u.patLo &&& 0xFF00#16) ||| u.nextTileLsb.setWidth 16
    patHi := (u.patHi &&& 0xFF00#16) ||| u.nextTileMsb.setWidth 16
    attrLo := (u.attrLo &&& 0xFF00#16) ||| fillByte (u.nextTileAttr.getLsbD 0)
    attrHi := (u.attrHi &&& 0xFF00#16) ||| fillByte (u.nextTileAttr.getLsbD 1) }

/-- `IncX()` on `v` (R359). -/
def incX (v : BitVec 15) : BitVec 15 :=
  if coarseX v = 31 then withNtX (!ntX v) (withCoarseX 0 v) else withCoarseX (coarseX v + 1) v

/-- `IncY()` on `v` (R367). -/
def incY (v : BitVec 15) : BitVec 15 :=
  if (fineY v).toNat < 7 then withFineY (fineY v + 1) v
  else
    let v := withFineY 0 v
    if coarseY v = 29 then withNtY (!ntY v) (withCoarseY 0 v)
    else if coarseY v = 31 then withCoarseY 0 v
    else withCoarseY (coarseY v + 1) v

/-- `CopyX()` (R368). -/
def copyX (u : Ppu) : BitVec 15 := (u.v &&& 0x7BE0#15) ||| (u.t &&& 0x041F#15)

/-- `CopyY()` (R369). -/
def copyY (u : Ppu) : BitVec 15 := (u.v &&& 0x041F#15) ||| (u.t &&& 0x7BE0#15)

/-- `FetchStep(k)` (R361 to R366, R359). -/
def fetchStep (k : Nat) (s : State) : State :=
  match k with
  | 1 => s.setPpu { s.ppu with nextTileId := ppuRead (nametableAddr s.ppu.v) s }
  | 3 => s.setPpu { s.ppu with nextTileAttr := attributeBits s.ppu.v (ppuRead (attributeAddr s.ppu.v) s) }
  | 5 => s.setPpu { s.ppu with nextTileLsb := ppuRead (patternAddr s.ppu) s }
  | 7 => s.setPpu { s.ppu with nextTileMsb := ppuRead (patternAddr s.ppu + 8) s }
  | 0 =>
    let u := loadShifters s.ppu
    s.setPpu { u with v := incX u.v }
  | _ => s

/-! ### The tick -/

/-- Steps 1 and 2 of the tick: the flag events (R350, R352, R353). -/
def flagEvents (sl d : Nat) (s : State) : State :=
  let t := if prerenderLine sl && decide (d = 1) then clearFlags s else s
  if decide (sl = 241) && decide (d = 1) then startVblank t else t

/-- Step 3: the pixel (R350, R370). -/
def pixelEvent (sl d : Nat) (s : State) : State :=
  if visibleLine sl && decide (1 ≤ d) && decide (d ≤ 256) then producePixel sl d s else s

/-- Step 4a: shift, then fetch (R350). -/
def fetchEvent (d : Nat) (s : State) : State :=
  if fetchDot d then fetchStep (d % 8) (s.setPpu (shiftShifters s.ppu)) else s

/-- The line performs IncY and CopyX: visible lines, and the pre-render line if the parameter says so (R367, R368, D38). -/
def scrollLine (sl : Nat) (s : State) : Bool := visibleLine sl || s.cfg.prerenderScrollUpdates

/-- Steps 4b to 4d: the scroll updates of `v` (R350, R367 to R369). -/
def scrollEvents (sl d : Nat) (s : State) : State :=
  let s := if decide (d = 256) && scrollLine sl s then s.setPpu { s.ppu with v := incY s.ppu.v } else s
  let s := if decide (d = 257) && scrollLine sl s then s.setPpu { s.ppu with v := copyX s.ppu } else s
  if prerenderLine sl && decide (280 ≤ d) && decide (d ≤ 304) then s.setPpu { s.ppu with v := copyY s.ppu } else s

/-- Step 4: everything gated on rendering (R350, R351). -/
def renderEvents (rend : Bool) (sl d : Nat) (s : State) : State :=
  if (visibleLine sl || prerenderLine sl) && rend then scrollEvents sl d (fetchEvent d s) else s

/-- `frame <- frame + 1; odd_frame <- not odd_frame`, back to dot (0, 0) (R354). -/
def newFrame (u : Ppu) : Ppu :=
  { u with dot := 0, scanline := 0, frame := u.frame + 1, oddFrame := !u.oddFrame }

/-- `Advance()` (R354), with `rend` the rendering sampled at the start of the tick. -/
def advance (rend : Bool) (u : Ppu) : Ppu :=
  if u.scanline = 261 ∧ u.dot = 339 ∧ u.oddFrame = true ∧ rend = true then newFrame u
  else if u.dot + 1 = 341 then
    if u.scanline + 1 = 262 then newFrame u else { u with dot := 0, scanline := u.scanline + 1 }
  else { u with dot := u.dot + 1 }

/-- `PpuTick()` (R350): position, mask and rendering are sampled at the start of the tick. -/
def ppuTick (s : State) : State :=
  let sl := s.ppu.scanline
  let d := s.ppu.dot
  let rend := rendering s.ppu
  let t := renderEvents rend sl d (pixelEvent sl d (flagEvents sl d s))
  t.setPpu (advance rend t.ppu)

end Sys2Proof.Machine
end

