-- ==== Sys2Proof/Machine/Sequencer.lean ====
section
/-! DEFINITION. The CPU's step and tick, and the bus tick (spec/40_fetch_decode_addressing.md R140 to R142,
spec/49_bus_clock_dma.md R390 to R394). -/

namespace Sys2Proof.Machine

/-- Fetch, decode and run the instruction at `PC` (R140). -/
def runInstruction (s : State) : Result :=
  let f := fetch s
  match instrOf f.op f.b1 f.b2 with
  | some i => exec i (f.st.setPc (s.cpu.pc + 1))
  | none => .next (raiseInvalid f.op s.cpu.pc f.st)

/-- `Step()`: nothing on a faulted CPU, one interrupt entry, or one whole instruction (R140). -/
def cpuStep (s : State) : Result :=
  if s.cpu.fault.isSome then .next s
  else
    match s.cpu.pending with
    | some k => .next (interruptEntry k s)
    | none => runInstruction s

/-- `CpuTick()`: pay one cycle of debt, or step (R392). -/
def cpuTick (s : State) : Result :=
  if s.cpu.fault.isSome then .next s
  else if 0 < s.cpu.cycles then .next (s.setCycles (s.cpu.cycles - 1))
  else cpuStep s

/-- `bus.tick_count <- bus.tick_count + 1` (R390). -/
def countTick (s : State) : State := s.setTickCount (s.tickCount + 1)

/-- `BusTick()`: one PPU dot, then on every third tick a CPU tick, then the count (R390). -/
def busTick (s : State) : Result :=
  let t := ppuTick s
  if t.tickCount % 3 = 0 then mapNext countTick (cpuTick t) else .next (countTick t)

/-- One step of the machine: a bus tick of the block (R390); for the stand-alone CPU, which has no sequencer and
no PPU, a CPU tick (70_reset_and_hazards.md R459). -/
def machineTick (s : State) : Result :=
  match s.cfg.bus with
  | .system => busTick s
  | .flat => cpuTick s

end Sys2Proof.Machine
end

