-- ==== Sys2Proof/Machine/Step.lean ====
section
/-! DEFINITION. One step of the machine, and an instruction placed from outside for the next step. -/

namespace Sys2Proof.Machine

/-- One step: `machineTick` (spec/49_bus_clock_dma.md R390). -/
def step (s : State) : Host.Outcome State Fault Refusal := machineTick s

/-- `s` with the instruction of a table word where the very next step fetches it (Machine/Fetch.lean; log entry 7). -/
def State.withFetchWord (s : State) (nbits w : Nat) : State := placeInstruction (tableBytes nbits w) s

end Sys2Proof.Machine
end

