-- ==== Sys2Proof/Machine/Views.lean ====
section
/-! DEFINITION. The words the statements about the machine are written in: the operand an instruction's mode
names, its timing, what `Step()` does around an operation, the arithmetic rules as relations on numbers, and which
fields two states share. No meaning calls them. -/

namespace Sys2Proof.Machine

/-- The assembled operand of an instruction (spec/30_encoding.md R122). -/
inductive OperandValue where
  | none
  | byte (b : Byte)
  | word (a : Addr)
  | offset (off : Int)
deriving DecidableEq, Repr

/-- The operand that stands in an instruction. -/
def operandValue : Instr → OperandValue
  | .brk | .php | .aslAcc | .clc | .nop1A | .plp | .rolAcc | .sec | .nop3A | .rti | .pha | .lsrAcc | .cli
  | .nop5A | .rts | .pla | .rorAcc | .sei | .nop7A | .dey | .txa | .tya | .txs | .tay | .tax | .clv | .tsx | .iny
  | .dex | .cld | .nopDA | .inx | .nop | .sed | .nopFA => .none
  | .bpl off | .bmi off | .bvc off | .bvs off | .bcc off | .bcs off | .bne off | .beq off => .offset off
  | .oraImm imm | .andImm imm | .eorImm imm | .adcImm imm | .nop80 imm | .ldyImm imm | .ldxImm imm | .ldaImm imm
  | .cpyImm imm | .cmpImm imm | .cpxImm imm | .sbcImm imm | .sbcImmEB imm => .byte imm
  | .oraIndX zp | .nop04 zp | .oraZp zp | .aslZp zp | .oraIndY zp | .nop14 zp | .oraZpX zp | .aslZpX zp
  | .andIndX zp | .bitZp zp | .andZp zp | .rolZp zp | .andIndY zp | .nop34 zp | .andZpX zp | .rolZpX zp
  | .eorIndX zp | .nop44 zp | .eorZp zp | .lsrZp zp | .eorIndY zp | .nop54 zp | .eorZpX zp | .lsrZpX zp
  | .adcIndX zp | .nop64 zp | .adcZp zp | .rorZp zp | .adcIndY zp | .nop74 zp | .adcZpX zp | .rorZpX zp
  | .staIndX zp | .saxIndX zp | .styZp zp | .staZp zp | .stxZp zp | .saxZp zp | .staIndY zp | .styZpX zp
  | .staZpX zp | .stxZpY zp | .saxZpY zp | .ldaIndX zp | .laxIndX zp | .ldyZp zp | .ldaZp zp | .ldxZp zp
  | .laxZp zp | .ldaIndY zp | .laxIndY zp | .ldyZpX zp | .ldaZpX zp | .ldxZpY zp | .laxZpY zp | .cmpIndX zp
  | .dcmIndX zp | .cpyZp zp | .cmpZp zp | .decZp zp | .dcmZp zp | .cmpIndY zp | .dcmIndY zp | .nopD4 zp
  | .cmpZpX zp | .decZpX zp | .dcmZpX zp | .sbcIndX zp | .isbIndX zp | .cpxZp zp | .sbcZp zp | .incZp zp
  | .isbZp zp | .sbcIndY zp | .isbIndY zp | .nopF4 zp | .sbcZpX zp | .incZpX zp | .isbZpX zp => .byte zp
  | .nop0C addr | .oraAbs addr | .aslAbs addr | .oraAbsY addr | .nop1C addr | .oraAbsX addr | .aslAbsX addr
  | .jsr addr | .bitAbs addr | .andAbs addr | .rolAbs addr | .andAbsY addr | .nop3C addr | .andAbsX addr
  | .rolAbsX addr | .jmpAbs addr | .eorAbs addr | .lsrAbs addr | .eorAbsY addr | .nop5C addr | .eorAbsX addr
  | .lsrAbsX addr | .jmpInd addr | .adcAbs addr | .rorAbs addr | .adcAbsY addr | .nop7C addr | .adcAbsX addr
  | .rorAbsX addr | .styAbs addr | .staAbs addr | .stxAbs addr | .saxAbs addr | .staAbsY addr | .staAbsX addr
  | .ldyAbs addr | .ldaAbs addr | .ldxAbs addr | .laxAbs addr | .ldaAbsY addr | .ldyAbsX addr | .ldaAbsX addr
  | .ldxAbsY addr | .laxAbsY addr | .cpyAbs addr | .cmpAbs addr | .decAbs addr | .dcmAbs addr | .cmpAbsY addr
  | .dcmAbsY addr | .nopDC addr | .cmpAbsX addr | .decAbsX addr | .dcmAbsX addr | .cpxAbs addr | .sbcAbs addr
  | .incAbs addr | .isbAbs addr | .sbcAbsY addr | .isbAbsY addr | .nopFC addr | .sbcAbsX addr | .incAbsX addr
  | .isbAbsX addr => .word addr

/-- The operand of an instruction whose mode has an effective address for data, from the mode's column of the
opcode table and the assembled operand (R122, R126). -/
def memOperand (i : Instr) : Option MemOperand :=
  match i.row.mode, operandValue i with
  | .zeroPage, .byte b => some (.zp b)
  | .zeroPageX, .byte b => some (.zpX b)
  | .zeroPageY, .byte b => some (.zpY b)
  | .absolute, .word a => some (.abs a)
  | .absoluteX, .word a => some (.absX a)
  | .absoluteY, .word a => some (.absY a)
  | .indirectX, .byte b => some (.indX b)
  | .indirectY, .byte b => some (.indY b)
  | _, _ => none

/-- The operand byte of a read: its value, whether the index crossed a page, and the state after the reads. -/
structure OperandRead where
  value : Byte
  crossed : Bool
  st : State
deriving DecidableEq, Repr

/-- The read of a memory operand (spec/40_fetch_decode_addressing.md R156). -/
def readAt (o : MemOperand) (s : State) : OperandRead :=
  let l := resolve o s
  let r := memRead l.ea l.st
  ⟨r.1, l.crossed, r.2⟩

/-- The operand byte `m` of a read-class instruction: the immediate byte, with no access (R145), or the byte at the
effective address (R156). -/
def readOperand (i : Instr) (s : State) : Option OperandRead :=
  match i.row.mode, operandValue i with
  | .immediate, .byte b => some ⟨b, false, s⟩
  | _, _ => (memOperand i).map fun o => readAt o s

/-- The cycles of an instruction outside the control-transfer set: its row's, and one more where the row pays
for a crossed page (R157). -/
def rowCycles (i : Instr) (crossed : Bool) : Nat :=
  i.row.cycles +
    match i.row.penalty with
    | .cross => crossed.toNat
    | .no | .branch => 0

/-- How an instruction uses the byte at its operand (R156): the undocumented NOPs are timed as readers. -/
inductive AccessClass where
  | read | write | readModifyWrite | other
deriving DecidableEq, Repr

/-- The access class of a mnemonic (R156). -/
def accessClass : Mnemonic → AccessClass
  | .lda | .ldx | .ldy | .adc | .sbc | .and | .ora | .eor | .cmp | .cpx | .cpy | .bit | .lax | .nop => .read
  | .sta | .stx | .sty | .sax => .write
  | .asl | .lsr | .rol | .ror | .inc | .dec | .dcm | .isb => .readModifyWrite
  | .tax | .tay | .txa | .tya | .tsx | .txs | .pha | .php | .pla | .plp | .inx | .iny | .dex | .dey | .bcc | .bcs
  | .beq | .bmi | .bne | .bpl | .bvc | .bvs | .jmp | .jsr | .rts | .brk | .rti | .clc | .sec | .cli | .sei | .cld
  | .sed | .clv => .other

/-- The base cycles and the page-cross column of the opcode table by access class and addressing mode, and by name
for the instructions without a data access (30_encoding.md R126; R157, R158). -/
def timing (m : Mnemonic) (mode : Mode) : Option (Nat × Penalty) :=
  match accessClass m, mode, m with
  | _, .implicit, .pha | _, .implicit, .php => some (3, .no)
  | _, .implicit, .pla | _, .implicit, .plp => some (4, .no)
  | _, .implicit, .rts | _, .implicit, .rti => some (6, .no)
  | _, .implicit, .brk => some (7, .no)
  | _, .implicit, _ | _, .accumulator, _ | _, .immediate, _ => some (2, .no)
  | _, .relative, _ => some (2, .branch)
  | _, .absolute, .jmp => some (3, .no)
  | _, .indirect, .jmp => some (5, .no)
  | _, .absolute, .jsr => some (6, .no)
  | .read, .zeroPage, _ => some (3, .no)
  | .read, .zeroPageX, _ | .read, .zeroPageY, _ | .read, .absolute, _ => some (4, .no)
  | .read, .absoluteX, _ | .read, .absoluteY, _ => some (4, .cross)
  | .read, .indirectX, _ => some (6, .no)
  | .read, .indirectY, _ => some (5, .cross)
  | .write, .zeroPage, _ => some (3, .no)
  | .write, .zeroPageX, _ | .write, .zeroPageY, _ | .write, .absolute, _ => some (4, .no)
  | .write, .absoluteX, _ | .write, .absoluteY, _ => some (5, .no)
  | .write, .indirectX, _ | .write, .indirectY, _ => some (6, .no)
  | .readModifyWrite, .zeroPage, _ => some (5, .no)
  | .readModifyWrite, .zeroPageX, _ | .readModifyWrite, .absolute, _ => some (6, .no)
  | .readModifyWrite, .absoluteX, _ | .readModifyWrite, .absoluteY, _ => some (7, .no)
  | .readModifyWrite, .indirectX, _ | .readModifyWrite, .indirectY, _ => some (8, .no)
  | _, _, _ => none

/-- What `Step()` does after the operation of an instruction outside the control-transfer set: `PC` moves past the
operand bytes and the row's cycles go into the debt (R140). -/
def concluded (i : Instr) (crossed : Bool) (t : State) : State :=
  charge (rowCycles i crossed) (t.setPc (t.cpu.pc + BitVec.ofNat 16 (i.row.length - 1)))

/-- `q` is the status `p` with N from bit 7 of `v` and Z from `v == 0`, every other flag kept (00_scope.md R15). -/
def NZFrom (v p q : Byte) : Prop :=
  flagOf .n q = v.getLsbD 7 ∧ flagOf .z q = decide (v = 0) ∧ ∀ f, f ≠ .n → f ≠ .z → flagOf f q = flagOf f p

/-- As `NZFrom`, with C written too. -/
def CNZFrom (c : Bool) (v p q : Byte) : Prop :=
  flagOf .c q = c ∧ flagOf .n q = v.getLsbD 7 ∧ flagOf .z q = decide (v = 0) ∧
    ∀ f, f ≠ .c → f ≠ .n → f ≠ .z → flagOf f q = flagOf f p

/-- `t` is `s` but for what a bus read may change: VBLANK, the write toggle, `v` and the read buffer
(20_memory.md R75, R95). -/
def OnlyReadEffects (s t : State) : Prop :=
  t = s.setPpu { s.ppu with status := t.ppu.status, w := t.ppu.w, v := t.ppu.v, bufferData := t.ppu.bufferData } ∧
    (t.ppu.status = s.ppu.status ∨ t.ppu.status = s.ppu.status &&& 0x7F) ∧ (t.ppu.w = s.ppu.w ∨ t.ppu.w = false)

/-- No CPU instruction moves these: the position and the frame count, the shifters and the staging bytes, the frame
buffer (20_memory.md R95: the PPU does not advance during an instruction). -/
def SameDotState (u u' : Ppu) : Prop :=
  u'.scanline = u.scanline ∧ u'.dot = u.dot ∧ u'.frame = u.frame ∧ u'.oddFrame = u.oddFrame ∧ u'.patLo = u.patLo ∧
    u'.patHi = u.patHi ∧ u'.attrLo = u.attrLo ∧ u'.attrHi = u.attrHi ∧ u'.nextTileId = u.nextTileId ∧
    u'.nextTileAttr = u.nextTileAttr ∧ u'.nextTileLsb = u.nextTileLsb ∧ u'.nextTileMsb = u.nextTileMsb ∧
    u'.framebuffer = u.framebuffer

/-- What every access of a CPU instruction leaves as it is: the configuration, every CPU register and latch but the
debt, the dot machine's own state, the tick count and the free-value count. -/
def OnlyBusEffects (s t : State) : Prop :=
  t.cfg = s.cfg ∧ t.cpu = { s.cpu with cycles := t.cpu.cycles } ∧ SameDotState s.ppu t.ppu ∧
    t.tickCount = s.tickCount ∧ t.freeCount = s.freeCount

/-- A cell that keeps a byte, seen from the CPU: no PPU register and no DMA port. -/
def plainCell (c : Config) (a : Addr) : Bool :=
  match route c a with
  | .ppuPort _ | .dmaPort => false
  | .flat _ | .ram _ | .zero | .prgRam _ | .prgRom _ => true

/-! ### Arithmetic, as relations on numbers -/

/-- Only the listed flags may differ. -/
def SameFlagsBut (fs : List Flag) (p q : Byte) : Prop := ∀ f, f ∉ fs → flagOf f q = flagOf f p

/-- The result and the status of a binary addition `a + m + c` (43_arithmetic_compare.md R210): `res` and `q` from
the status `p`. V is given by the spec's formula and, with it, as two's-complement overflow. -/
def BinaryAdd (a m p res q : Byte) : Prop :=
  res.toNat = (a.toNat + m.toNat + (flagOf .c p).toNat) % 256 ∧
  flagOf .c q = decide (256 ≤ a.toNat + m.toNat + (flagOf .c p).toNat) ∧
  flagOf .v q = decide ((a ^^^ res) &&& (m ^^^ res) &&& 0x80 ≠ 0) ∧
  flagOf .v q = decide (a.toInt + m.toInt + (flagOf .c p).toNat < -128 ∨ 127 < a.toInt + m.toInt + (flagOf .c p).toNat) ∧
  flagOf .n q = res.getLsbD 7 ∧ flagOf .z q = decide (res = 0) ∧ SameFlagsBut [.c, .v, .n, .z] p q

/-- The result and the status of a binary subtraction `a - m - (1 - c)` (R214): C is 1 exactly when no borrow occurs;
V is two's-complement overflow. -/
def BinarySub (a m p res q : Byte) : Prop :=
  (res.toNat : Int) = ((a.toNat : Int) - m.toNat - (1 - (flagOf .c p).toNat)) % 256 ∧
  flagOf .c q = decide (m.toNat + (1 - (flagOf .c p).toNat) ≤ a.toNat) ∧
  flagOf .v q = decide ((a ^^^ res) &&& ((m ^^^ 0xFF) ^^^ res) &&& 0x80 ≠ 0) ∧
  flagOf .v q = decide (a.toInt - m.toInt - (1 - (flagOf .c p).toNat) < -128 ∨
    127 < a.toInt - m.toInt - (1 - ((flagOf .c p).toNat : Int))) ∧
  flagOf .n q = res.getLsbD 7 ∧ flagOf .z q = decide (res = 0) ∧ SameFlagsBut [.c, .v, .n, .z] p q

/-- Both decimal digits of a byte are digits (R211). -/
def IsBcd (b : Byte) : Prop := b.toNat / 16 ≤ 9 ∧ b.toNat % 16 ≤ 9

/-- The number two decimal digits stand for (R211). -/
def bcdValue (b : Byte) : Nat := b.toNat / 16 * 10 + b.toNat % 16

/-- The result and the status of a decimal addition of valid BCD (R213): everything but V. -/
def DecimalAdd (a m p res q : Byte) : Prop :=
  IsBcd res ∧ bcdValue res = (bcdValue a + bcdValue m + (flagOf .c p).toNat) % 100 ∧
  flagOf .c q = decide (99 < bcdValue a + bcdValue m + (flagOf .c p).toNat) ∧
  flagOf .n q = res.getLsbD 7 ∧ flagOf .z q = decide (res = 0) ∧ SameFlagsBut [.c, .v, .n, .z] p q

/-- The result and the status of a decimal subtraction of valid BCD (R213, D19): everything but V. -/
def DecimalSub (a m p res q : Byte) : Prop :=
  IsBcd res ∧ (bcdValue res : Int) = ((bcdValue a : Int) - bcdValue m - (1 - (flagOf .c p).toNat)) % 100 ∧
  flagOf .c q = decide (bcdValue m + (1 - (flagOf .c p).toNat) ≤ bcdValue a) ∧
  flagOf .n q = res.getLsbD 7 ∧ flagOf .z q = decide (res = 0) ∧ SameFlagsBut [.c, .v, .n, .z] p q

/-- ADC and SBC work in decimal: `P.D == 1 and DECIMAL_ENABLED` (R212, R214). -/
def Decimal (s : State) : Prop := flagOf .d s.cpu.p = true ∧ s.cfg.decimalEnabled = true

/-- The result of a shift or rotate of `m` with carry in `c`, as a number, and the bit that goes to C
(44_logic_shift.md R245 to R248). -/
def shiftRule (n : Mnemonic) (c : Bool) (m : Byte) : Option (Nat × Bool) :=
  match n with
  | .asl => some (m.toNat * 2 % 256, m.getLsbD 7)
  | .lsr => some (m.toNat / 2, m.getLsbD 0)
  | .rol => some (m.toNat * 2 % 256 + c.toNat, m.getLsbD 7)
  | .ror => some (m.toNat / 2 + 128 * c.toNat, m.getLsbD 0)
  | _ => none

/-! ### Instructions by what they do -/

/-- A branch: the flag it tests, the value at which it is taken, its offset (45_control_flags_system.md R261 to R268). -/
def branchOf : Instr → Option (Flag × Bool × Int)
  | .bcc off => some (.c, false, off)
  | .bcs off => some (.c, true, off)
  | .beq off => some (.z, true, off)
  | .bne off => some (.z, false, off)
  | .bmi off => some (.n, true, off)
  | .bpl off => some (.n, false, off)
  | .bvc off => some (.v, false, off)
  | .bvs off => some (.v, true, off)
  | _ => none

/-- A flag instruction: the one flag it writes, and the value (R285 to R291). -/
def flagWriteOf : Instr → Option (Flag × Bool)
  | .clc => some (.c, false)
  | .sec => some (.c, true)
  | .cli => some (.i, false)
  | .sei => some (.i, true)
  | .cld => some (.d, false)
  | .sed => some (.d, true)
  | .clv => some (.v, false)
  | _ => none

/-- The flags an instruction may write (10_state.md R24); B and U are listed where the whole of `P` is pulled. -/
def flagsWritten : Mnemonic → List Flag
  | .adc | .sbc | .isb => [.c, .z, .v, .n]
  | .cmp | .cpx | .cpy | .dcm | .asl | .lsr | .rol | .ror => [.c, .z, .n]
  | .lda | .ldx | .ldy | .lax | .tax | .tay | .txa | .tya | .tsx | .pla | .inc | .dec | .inx | .iny | .dex | .dey
  | .and | .ora | .eor => [.z, .n]
  | .bit => [.z, .v, .n]
  | .clc | .sec => [.c]
  | .cli | .sei | .brk => [.i]
  | .cld | .sed => [.d]
  | .clv => [.v]
  | .plp | .rti => [.c, .z, .i, .d, .b, .u, .v, .n]
  | .sta | .stx | .sty | .sax | .txs | .pha | .php | .bcc | .bcs | .beq | .bmi | .bne | .bpl | .bvc | .bvs
  | .jmp | .jsr | .rts | .nop => []

/-- The registers A, X, Y, S. -/
inductive Reg where
  | a | x | y | s
deriving DecidableEq, Repr

/-- The contents of a register. -/
def regOf : Reg → Cpu → Byte
  | .a, c => c.a
  | .x, c => c.x
  | .y, c => c.y
  | .s, c => c.s

/-- The registers an instruction may write, the accumulator form of a shift apart (files 41 to 46). -/
def regsWritten : Mnemonic → List Reg
  | .lda | .txa | .tya | .adc | .sbc | .and | .ora | .eor | .isb => [.a]
  | .ldx | .tax | .tsx | .inx | .dex => [.x]
  | .ldy | .tay | .iny | .dey => [.y]
  | .lax => [.a, .x]
  | .txs | .pha | .php | .plp | .jsr | .rts | .brk | .rti => [.s]
  | .pla => [.a, .s]
  | .sta | .stx | .sty | .sax | .cmp | .cpx | .cpy | .dcm | .inc | .dec | .bit | .asl | .lsr | .rol | .ror | .bcc
  | .bcs | .beq | .bmi | .bne | .bpl | .bvc | .bvs | .clc | .sec | .cli | .sei | .cld | .sed | .clv | .jmp
  | .nop => []

/-- The instructions of the write and read-modify-write classes (40_fetch_decode_addressing.md R156). -/
def storesToOperand : Mnemonic → Bool
  | .sta | .stx | .sty | .sax | .asl | .lsr | .rol | .ror | .inc | .dec | .dcm | .isb => true
  | _ => false

/-- How many bytes an instruction pushes (42_stack.md, 45_control_flags_system.md). -/
def pushCount : Mnemonic → Nat
  | .pha | .php => 1
  | .jsr => 2
  | .brk => 3
  | _ => 0

/-- The instruction stores a byte: to its memory operand, or on the stack. -/
def storesByte (i : Instr) : Bool :=
  (storesToOperand i.row.mnemonic && (memOperand i).isSome) || decide (0 < pushCount i.row.mnemonic)

/-! ### A step -/

/-- The state a CPU tick of this step works on: after the step's dot, or `s` itself without a PPU (49_bus_clock_dma.md
R390, R394; 70_reset_and_hazards.md R459). -/
def cpuSees (s : State) : State :=
  match s.cfg.bus with
  | .system => ppuTick s
  | .flat => s

/-- This step has a CPU tick (R390). -/
def cpuTurn (s : State) : Bool :=
  match s.cfg.bus with
  | .system => decide (s.tickCount % 3 = 0)
  | .flat => true

/-- What follows a CPU tick in this step: the count of bus ticks (R390). -/
def finishStep (s : State) (r : Result) : Result :=
  match s.cfg.bus with
  | .system => mapNext countTick r
  | .flat => r

/-- The next step runs an instruction: a CPU tick, no fault, no debt, nothing pending (R140, R392). -/
def RunsInstruction (s : State) : Prop :=
  cpuTurn s = true ∧ (cpuSees s).cpu.fault = none ∧ (cpuSees s).cpu.cycles = 0 ∧ (cpuSees s).cpu.pending = none

end Sys2Proof.Machine
end

