-- ==== Sys2Proof/Machine/Cycles.lean ====
section
/-! DEFINITION. The cycles `step()` returns (spec/40_fetch_decode_addressing.md R140, R157, R158). The meanings charge them
themselves; this is the same number as a function of the state before. -/

namespace Sys2Proof.Machine

/-- `extra` of an instruction: the page-cross cycle where the row has it (R157), the branch penalties (R158). `PC` is at
the first operand byte. -/
def extraCycles (i : Instr) (s : State) : Nat :=
  match i.row.penalty, memOperand i, branchOf i with
  | .cross, some o, _ => (resolve o s).crossed.toNat
  | .branch, _, some (f, v, off) =>
    if flagOf f s.cpu.p = v then 1 + (pageDiffers (branchNext s) (branchTarget off s)).toNat else 0
  | _, _, _ => 0

/-- `d.cycles + extra` (R140): what an instruction's step returns, the 513 of a DMA inside it not among them. -/
def instructionCycles (i : Instr) (s : State) : Nat := i.row.cycles + extraCycles i s

/-- The value `step()` returns (R140): 7 or 8 for an interrupt entry, `d.cycles + extra` for an instruction. A faulted CPU
does nothing and an illegal byte raises: neither returns a number (log entry 16). -/
def stepReturns (s : State) : Option Nat :=
  if s.cpu.fault.isSome then none
  else
    match s.cpu.pending with
    | some k => some (entryCycles k)
    | none =>
      let f := fetch s
      (instrOf f.op f.b1 f.b2).map fun i => instructionCycles i (f.st.setPc (s.cpu.pc + 1))

end Sys2Proof.Machine
end

