-- ==== Sys2Proof/Machine/Reset.lean ====
section
/-! DEFINITION. Reset and power-on as events (spec/70_reset_and_hazards.md R440 to R443). -/

namespace Sys2Proof.Machine

/-- `CpuReset()` (R441): I and U set, `PC` from $FFFC, debt, pending interrupt and fault cleared, no push. -/
def cpuReset (s : State) : State :=
  (((jumpThrough resetVector ((s.setFlag .i true).setFlag .u true)).setCycles 0).setPending none).setFault none

/-- `PpuReset()` (R442). -/
def ppuReset (s : State) : State :=
  s.setPpu { s.ppu with
    dot := 0, scanline := 0, frame := 0, w := false, ctrl := 0, mask := 0, status := 0, oddFrame := false }

/-- System reset: `PpuReset(); CpuReset()` (R443, D17). -/
def systemReset (s : State) : State := cpuReset (ppuReset s)

/-- `POWERON_FLAGS` as a status byte with I, B and U clear (R440). -/
def powerOnStatus (f : PowerOnFlags) : Byte :=
  putFlag .c f.c (putFlag .z f.z (putFlag .d f.d (putFlag .v f.v (putFlag .n f.n 0))))

/-- The block as constructed, before the reset step (R440, 10_state.md R51). -/
def constructed (c : Config) : State where
  cfg := c
  cpu :=
    { a := c.powerOn.a, x := c.powerOn.x, y := c.powerOn.y, s := c.powerOn.s, p := powerOnStatus c.powerOn.flags
      pc := 0, cycles := 0, pending := none, fault := none }
  ppu := { Ppu.reset with vram := c.powerOn.vram, oam := c.powerOn.oam, palette := c.powerOn.palette }
  ram := c.powerOn.ram
  prgRam := c.powerOn.prgRam
  chrRam := if c.chrIsRam then c.chr else []
  flatMem := c.powerOn.flatMem
  tickCount := 0
  freeCount := 0

/-- `PowerOn(config)` (R440): construction, then the reset of both units. -/
def powerOn (c : Config) : State := systemReset (constructed c)

end Sys2Proof.Machine
end

