-- ==== Sys2Proof/Safety.lean ====
section
/-! DEFINITION. What a good state is: the invariants of the spec, and a run without a fault. -/

namespace Sys2Proof.Machine

/-- `P.U == 1` and `P.B == 0` in the register (spec/10_state.md R25). -/
abbrev Cpu.Inv (c : Cpu) : Prop := flagOf .u c.p = true ∧ flagOf .b c.p = false

/-- The position is in the frame (R36), `odd_frame` is the parity of `frame` (R37), the unused status bits are 0
(R34), the staged selector has two bits (R41), and the memories have their canonical form and their sizes
(R42 to R44, R46). -/
abbrev Ppu.Inv (u : Ppu) : Prop :=
  u.scanline ≤ 261 ∧ u.dot ≤ 340 ∧ u.oddFrame = decide (u.frame % 2 = 1) ∧ u.status &&& 0x1F = 0 ∧
    u.nextTileAttr.toNat < 4 ∧ u.vram.fits 0x800 = true ∧ u.oam.fits 0x100 = true ∧ u.palette.fits 0x20 = true ∧
    u.framebuffer.fits 61440 = true

/-- The invariant of the block: an accepted configuration, the two above, and the memories outside the PPU in
canonical form and of their sizes (R47, R49, 70_reset_and_hazards.md R459). -/
abbrev State.Inv (s : State) : Prop :=
  s.cfg.wf = true ∧ s.cpu.Inv ∧ s.ppu.Inv ∧ s.ram.fits 0x800 = true ∧ s.prgRam.fits 0x2000 = true ∧
    s.chrRam.fits 0x2000 = true ∧ s.flatMem.fits 0x10000 = true

/-- A state of a run that has met no illegal instruction; a faulted run is never a success
(spec/60_exceptions.md R410, spec/70_reset_and_hazards.md R458). -/
abbrev State.Unfaulted (s : State) : Prop := s.cpu.fault = none

end Sys2Proof.Machine
end

