-- ==== Sys2Proof/Certificates/Slice0/Obligations.lean ====
section
/-! DEFINITION. The statements for the provers. Every statement holds for every configuration: the parameters of the
block stand in the state (log entry 1). `charge` puts cycles into the debt as the last line of spec rule R140 says,
whose addition and `CPU_DEBT_BIAS` are the spec's own decision D3: a statement that says it has basis 'derived'. -/

section Statements
open Sys2Proof Sys2Proof.Machine

/-! ### Encoding -/

/-- Every well-formed instruction, with every operand its encoding admits, is read back from its bytes. -/
def Obligations.DecodeInvertsEncode : Prop :=
  ∀ (i : Instr) (rest : List Byte), i.wf = true → decode (encode i ++ rest) = .ok (i, rest)

/-- What the decoder reads is well formed and its encoding is the bytes read: no operand bit is dropped. -/
def Obligations.EncodeInvertsDecode : Prop :=
  ∀ (bytes rest : List Byte) (i : Instr), decode bytes = .ok (i, rest) → i.wf = true ∧ encode i ++ rest = bytes

/-- Words written out from the opcode table, one for each family and each addressing mode (R126, R129). -/
def Obligations.OpcodeTableWords : Prop :=
  ∀ (lo hi : Byte) (rest : List Byte),
    decode (0xA9 :: lo :: rest) = .ok (.ldaImm lo, rest) ∧ decode (0x85 :: lo :: rest) = .ok (.staZp lo, rest) ∧
    decode (0xB5 :: lo :: rest) = .ok (.ldaZpX lo, rest) ∧ decode (0x96 :: lo :: rest) = .ok (.stxZpY lo, rest) ∧
    decode (0xAA :: rest) = .ok (.tax, rest) ∧ decode (0x48 :: rest) = .ok (.pha, rest) ∧
    decode (0x7D :: lo :: hi :: rest) = .ok (.adcAbsX (word hi lo), rest) ∧
    decode (0xF9 :: lo :: hi :: rest) = .ok (.sbcAbsY (word hi lo), rest) ∧
    decode (0xC1 :: lo :: rest) = .ok (.cmpIndX lo, rest) ∧ decode (0x31 :: lo :: rest) = .ok (.andIndY lo, rest) ∧
    decode (0x0A :: rest) = .ok (.aslAcc, rest) ∧ decode (0x2C :: lo :: hi :: rest) = .ok (.bitAbs (word hi lo), rest) ∧
    decode (0x90 :: 0x10 :: rest) = .ok (.bcc 16, rest) ∧ decode (0x10 :: 0xFB :: rest) = .ok (.bpl (-5), rest) ∧
    decode (0x6C :: lo :: hi :: rest) = .ok (.jmpInd (word hi lo), rest) ∧ decode (0x00 :: rest) = .ok (.brk, rest) ∧
    decode (0x40 :: rest) = .ok (.rti, rest) ∧ decode (0x78 :: rest) = .ok (.sei, rest) ∧
    decode (0xEA :: rest) = .ok (.nop, rest) ∧ decode (0x80 :: lo :: rest) = .ok (.nop80 lo, rest) ∧
    decode (0xDB :: lo :: hi :: rest) = .ok (.dcmAbsY (word hi lo), rest) ∧
    decode (0xEB :: lo :: rest) = .ok (.sbcImmEB lo, rest)

/-- The 57 bytes without a row are exactly the illegal bytes (R127; the choice of the undocumented NOPs is the
spec's decision D10). -/
def Obligations.IllegalBytes : Prop :=
  ∀ op b1 b2 : Byte, instrOf op b1 b2 = none ↔ op ∈
    ([0x02, 0x03, 0x07, 0x0B, 0x0F, 0x12, 0x13, 0x17, 0x1B, 0x1F, 0x22, 0x23, 0x27, 0x2B, 0x2F, 0x32, 0x33, 0x37,
      0x3B, 0x3F] ++ [0x42, 0x43, 0x47, 0x4B, 0x4F, 0x52, 0x53, 0x57, 0x5B, 0x5F, 0x62, 0x63, 0x67, 0x6B, 0x6F, 0x72,
      0x73, 0x77, 0x7B, 0x7F] ++ [0x82, 0x89, 0x8B, 0x92, 0x93, 0x9B, 0x9C, 0x9E, 0x9F, 0xAB, 0xB2, 0xBB, 0xC2, 0xCB,
      0xD2, 0xE2, 0xF2] : List Byte)

/-! ### Steps -/

/-- When the bytes fetched at the program counter are the encoding of a well-formed instruction, the step is `exec`
of it, with `PC` at the first operand byte, after the step's dot and before the tick count (R140, R141, R390). The
bytes are bus reads at `PC`, `PC + 1`, `PC + 2`, as many as the instruction has, in that order, each once. -/
def Obligations.StepRunsDecodedInstruction : Prop :=
  ∀ (s : State) (i : Instr), let u := cpuSees s
    let r0 := memRead u.cpu.pc u
    let r1 := memRead (u.cpu.pc + 1) r0.2
    let r2 := memRead (u.cpu.pc + 2) r1.2
    RunsInstruction s → i.wf = true →
    (encode i = [r0.1] → step s = finishStep s (exec i (r0.2.setPc (u.cpu.pc + 1)))) ∧
    (encode i = [r0.1, r1.1] → step s = finishStep s (exec i (r1.2.setPc (u.cpu.pc + 1)))) ∧
    (encode i = [r0.1, r1.1, r2.1] → step s = finishStep s (exec i (r2.2.setPc (u.cpu.pc + 1))))

/-- An illegal byte at the program counter is recorded as the fault, with the byte and its address, and nothing else
happens: the only access is the fetch (R410; recording it as state is the spec's decision D9, log entry 6). -/
def Obligations.IllegalByteRaisesInvalidInstruction : Prop :=
  ∀ s : State, let u := cpuSees s
    let r0 := memRead u.cpu.pc u
    RunsInstruction s → instrOf r0.1 0 0 = none →
    step s = finishStep s (.next (r0.2.setFault (some (.invalidInstruction r0.1 u.cpu.pc))))

/-- A faulted CPU does nothing, tick or step, while the PPU and the tick count go on; the fault stays (R410, R140,
R392; the spec's decision D9). -/
def Obligations.FaultedCpuIsInert : Prop :=
  ∀ s : State, s.cpu.fault ≠ none →
    cpuTick s = .next s ∧ cpuStep s = .next s ∧
    (s.cfg.bus = .flat → step s = .next s) ∧
    (s.cfg.bus = .system → step s = .next (countTick (ppuTick s)) ∧ (ppuTick s).cpu.fault = s.cpu.fault)

/-- Only every third bus tick has a CPU tick; in the others the CPU keeps everything but the NMI latch (R390; the
start and the place of the count are the spec's decision D4). -/
def Obligations.CpuTicksEveryThirdBusTick : Prop :=
  ∀ s : State, s.cfg.bus = .system →
    (s.tickCount % 3 ≠ 0 → ∃ (u : Ppu) (k : Option Interrupt),
      step s = .next (((s.setPpu u).setPending k).setTickCount (s.tickCount + 1)) ∧
      (k = s.cpu.pending ∨ k = some .nmi)) ∧
    (s.tickCount % 3 = 0 → s.cpu.fault = none → 0 < s.cpu.cycles → ∃ (u : Ppu) (k : Option Interrupt),
      step s = .next ((((s.setPpu u).setPending k).setCycles (s.cpu.cycles - 1)).setTickCount (s.tickCount + 1)) ∧
      (k = s.cpu.pending ∨ k = some .nmi))

/-- A debt of `n` cycles is paid in `3 n` bus ticks, in which the CPU executes nothing and touches no memory; the
tick after them can execute (R392, R393). A run has no request from outside between its steps (log entry 8). -/
def Obligations.DebtIsPaidInThreeTicksPerCycle : Prop :=
  ∀ s : State, s.cfg.bus = .system → s.tickCount % 3 = 0 → s.cpu.fault = none →
    ∃ (u : Ppu) (k : Option Interrupt),
      Host.Core.run core (3 * s.cpu.cycles) s =
        .next ((((s.setPpu u).setPending k).setCycles 0).setTickCount (s.tickCount + 3 * s.cpu.cycles)) ∧
      (k = s.cpu.pending ∨ k = some .nmi)

/-- No instruction and no step ends in a fault or a refusal: the block has no synchronous exception but
InvalidInstruction, which a step records and goes on (R411, R410). -/
def Obligations.EveryStepGoesOn : Prop :=
  (∀ (i : Instr) (s : State), ∃ t, exec i s = .next t) ∧ (∀ s : State, ∃ t, step s = .next t)

/-! ### What each instruction does: the whole next state

In each, `concluded i crossed t` is `t` with `PC` past the operand bytes and the row's cycles charged, one more where
the row pays for a crossed page (R140, R157). -/

/-- LDA, LDX, LDY, LAX: every form reads its operand byte once, puts it into its register(s), sets N and Z from it,
and completes (R170 to R172, R306). -/
def Obligations.LoadsComplete : Prop :=
  ∀ (i : Instr) (s : State),
    (i.row.mnemonic = .lda → ∃ r q, readOperand i s = some r ∧ NZFrom r.value s.cpu.p q ∧
      exec i s = .next (concluded i r.crossed ((r.st.setA r.value).setP q))) ∧
    (i.row.mnemonic = .ldx → ∃ r q, readOperand i s = some r ∧ NZFrom r.value s.cpu.p q ∧
      exec i s = .next (concluded i r.crossed ((r.st.setX r.value).setP q))) ∧
    (i.row.mnemonic = .ldy → ∃ r q, readOperand i s = some r ∧ NZFrom r.value s.cpu.p q ∧
      exec i s = .next (concluded i r.crossed ((r.st.setY r.value).setP q))) ∧
    (i.row.mnemonic = .lax → ∃ r q, readOperand i s = some r ∧ NZFrom r.value s.cpu.p q ∧
      exec i s = .next (concluded i r.crossed (((r.st.setA r.value).setX r.value).setP q)))

/-- STA, STX, STY, SAX: every form writes its register (SAX: `A & X`) once to its effective address, no flag changes,
no page-cross penalty, and completes (R173 to R175, R307). -/
def Obligations.StoresComplete : Prop :=
  ∀ (i : Instr) (s : State) (v : Byte),
    (i.row.mnemonic = .sta ∧ v = s.cpu.a ∨ i.row.mnemonic = .stx ∧ v = s.cpu.x ∨ i.row.mnemonic = .sty ∧ v = s.cpu.y ∨
      i.row.mnemonic = .sax ∧ v = s.cpu.a &&& s.cpu.x) →
    ∃ o, memOperand i = some o ∧
      exec i s = .next (concluded i false (memWrite (resolve o s).ea v (resolve o s).st))

/-- TAX, TAY, TXA, TYA, TSX set N and Z from the value moved; TXS sets no flag; each completes (R180 to R187). -/
def Obligations.TransfersComplete : Prop :=
  ∀ s : State,
    (∃ q, NZFrom s.cpu.a s.cpu.p q ∧ exec .tax s = .next (concluded .tax false ((s.setX s.cpu.a).setP q))) ∧
    (∃ q, NZFrom s.cpu.a s.cpu.p q ∧ exec .tay s = .next (concluded .tay false ((s.setY s.cpu.a).setP q))) ∧
    (∃ q, NZFrom s.cpu.x s.cpu.p q ∧ exec .txa s = .next (concluded .txa false ((s.setA s.cpu.x).setP q))) ∧
    (∃ q, NZFrom s.cpu.y s.cpu.p q ∧ exec .tya s = .next (concluded .tya false ((s.setA s.cpu.y).setP q))) ∧
    (∃ q, NZFrom s.cpu.s s.cpu.p q ∧ exec .tsx s = .next (concluded .tsx false ((s.setX s.cpu.s).setP q))) ∧
    exec .txs s = .next (concluded .txs false (s.setS s.cpu.x))

/-- PHA and PHP store at `$0100 + S` before S is decremented; PLA and PLP increment S, then load from `$0100 + S`; S
wraps in its 8 bits; PHP pushes B set, PLP forces B to 0 and U to 1 (R200, R201, R203 to R206). -/
def Obligations.StackInstructionsComplete : Prop :=
  ∀ s : State, let m := peek (word 1 (s.cpu.s + 1)) s
    exec .pha s = .next (concluded .pha false ((memWrite (word 1 s.cpu.s) s.cpu.a s).setS (s.cpu.s - 1))) ∧
    exec .php s = .next (concluded .php false ((memWrite (word 1 s.cpu.s) (s.cpu.p ||| 0x10) s).setS (s.cpu.s - 1))) ∧
    (∃ q, NZFrom m s.cpu.p q ∧
      exec .pla s = .next (concluded .pla false (((s.setS (s.cpu.s + 1)).setA m).setP q))) ∧
    (∃ q, flagOf .b q = false ∧ flagOf .u q = true ∧ SameFlagsBut [.b, .u] m q ∧
      exec .plp s = .next (concluded .plp false ((s.setS (s.cpu.s + 1)).setP q)))

/-- ADC and SBC in binary, every form, the second SBC opcode among them: result, carry, overflow, N and Z, and
completion (R210, R212, R214, R310). -/
def Obligations.BinaryAdcSbcComplete : Prop :=
  ∀ (i : Instr) (s : State), ¬ Decimal s →
    (i.row.mnemonic = .adc → ∃ r res q, readOperand i s = some r ∧ BinaryAdd s.cpu.a r.value s.cpu.p res q ∧
      exec i s = .next (concluded i r.crossed ((r.st.setA res).setP q))) ∧
    (i.row.mnemonic = .sbc → ∃ r res q, readOperand i s = some r ∧ BinarySub s.cpu.a r.value s.cpu.p res q ∧
      exec i s = .next (concluded i r.crossed ((r.st.setA res).setP q)))

/-- ADC and SBC in decimal complete on every operand. On valid BCD the result, C, N and Z are the decimal ones and V
is any value; on other bytes A and C, Z, V, N are any value; nothing else changes (R211, R213; D18 and D19 are the
spec's decisions, log entry 5). The count of free values moves, to a number not stated. -/
def Obligations.DecimalAdcSbcComplete : Prop :=
  ∀ (i : Instr) (s : State), Decimal s → (i.row.mnemonic = .adc ∨ i.row.mnemonic = .sbc) →
    ∃ r res q n, readOperand i s = some r ∧ SameFlagsBut [.c, .v, .n, .z] s.cpu.p q ∧
      exec i s = .next (concluded i r.crossed (((r.st.setA res).setP q).setFreeCount n)) ∧
      (IsBcd s.cpu.a → IsBcd r.value → i.row.mnemonic = .adc → DecimalAdd s.cpu.a r.value s.cpu.p res q) ∧
      (IsBcd s.cpu.a → IsBcd r.value → i.row.mnemonic = .sbc → DecimalSub s.cpu.a r.value s.cpu.p res q)

/-- CMP, CPX, CPY: C is the unsigned comparison, N and Z come from the difference, no register changes (R215 to
R218). -/
def Obligations.ComparesComplete : Prop :=
  ∀ (i : Instr) (s : State) (v : Byte),
    (i.row.mnemonic = .cmp ∧ v = s.cpu.a ∨ i.row.mnemonic = .cpx ∧ v = s.cpu.x ∨ i.row.mnemonic = .cpy ∧ v = s.cpu.y) →
    ∃ r q, readOperand i s = some r ∧ CNZFrom (decide (r.value.toNat ≤ v.toNat)) (v - r.value) s.cpu.p q ∧
      exec i s = .next (concluded i r.crossed (r.st.setP q))

/-- INC and DEC read and write the byte at the effective address once; INX, INY, DEX, DEY work on their register; all
modulo 256, N and Z from the new value, C and V kept (R220 to R225). -/
def Obligations.IncrementsComplete : Prop :=
  ∀ (i : Instr) (s : State),
    (∀ d : Byte, i.row.mnemonic = .inc ∧ d = 1 ∨ i.row.mnemonic = .dec ∧ d = 0xFF →
      ∃ o q, memOperand i = some o ∧ NZFrom ((readAt o s).value + d) s.cpu.p q ∧
        exec i s =
          .next (concluded i false ((memWrite (resolve o s).ea ((readAt o s).value + d) (readAt o s).st).setP q))) ∧
    (∃ q, NZFrom (s.cpu.x + 1) s.cpu.p q ∧ exec .inx s = .next (concluded .inx false ((s.setX (s.cpu.x + 1)).setP q))) ∧
    (∃ q, NZFrom (s.cpu.y + 1) s.cpu.p q ∧ exec .iny s = .next (concluded .iny false ((s.setY (s.cpu.y + 1)).setP q))) ∧
    (∃ q, NZFrom (s.cpu.x - 1) s.cpu.p q ∧ exec .dex s = .next (concluded .dex false ((s.setX (s.cpu.x - 1)).setP q))) ∧
    (∃ q, NZFrom (s.cpu.y - 1) s.cpu.p q ∧ exec .dey s = .next (concluded .dey false ((s.setY (s.cpu.y - 1)).setP q)))

/-- AND, ORA, EOR: the bitwise result in A, N and Z from it, every other flag kept (R240 to R242). -/
def Obligations.LogicComplete : Prop :=
  ∀ (i : Instr) (s : State),
    (i.row.mnemonic = .and → ∃ r q, readOperand i s = some r ∧ NZFrom (s.cpu.a &&& r.value) s.cpu.p q ∧
      exec i s = .next (concluded i r.crossed ((r.st.setA (s.cpu.a &&& r.value)).setP q))) ∧
    (i.row.mnemonic = .ora → ∃ r q, readOperand i s = some r ∧ NZFrom (s.cpu.a ||| r.value) s.cpu.p q ∧
      exec i s = .next (concluded i r.crossed ((r.st.setA (s.cpu.a ||| r.value)).setP q))) ∧
    (i.row.mnemonic = .eor → ∃ r q, readOperand i s = some r ∧ NZFrom (s.cpu.a ^^^ r.value) s.cpu.p q ∧
      exec i s = .next (concluded i r.crossed ((r.st.setA (s.cpu.a ^^^ r.value)).setP q)))

/-- BIT: Z from `A & m`, N and V from bits 7 and 6 of the operand, nothing else (R243). -/
def Obligations.BitComplete : Prop :=
  ∀ (i : Instr) (s : State), i.row.mnemonic = .bit →
    ∃ r q, readOperand i s = some r ∧ flagOf .z q = decide (s.cpu.a &&& r.value = 0) ∧
      flagOf .n q = r.value.getLsbD 7 ∧ flagOf .v q = r.value.getLsbD 6 ∧ SameFlagsBut [.z, .v, .n] s.cpu.p q ∧
      exec i s = .next (concluded i r.crossed (r.st.setP q))

/-- ASL, LSR, ROL, ROR on memory (one read, one write) and on the accumulator (no access): the shifted byte, the bit
shifted out in C, N and Z from the result, V kept (R244 to R248). -/
def Obligations.ShiftsComplete : Prop :=
  ∀ (i : Instr) (s : State),
    (∀ o m n c, memOperand i = some o → m = (readAt o s).value →
      shiftRule i.row.mnemonic (flagOf .c s.cpu.p) m = some (n, c) →
      ∃ b q, b.toNat = n ∧ CNZFrom c b s.cpu.p q ∧
        exec i s = .next (concluded i false ((memWrite (resolve o s).ea b (readAt o s).st).setP q))) ∧
    (∀ n c, i.row.mode = .accumulator → shiftRule i.row.mnemonic (flagOf .c s.cpu.p) s.cpu.a = some (n, c) →
      ∃ b q, b.toNat = n ∧ CNZFrom c b s.cpu.p q ∧ exec i s = .next (concluded i false ((s.setA b).setP q))) ∧
    ((shiftRule i.row.mnemonic (flagOf .c s.cpu.p) s.cpu.a).isSome = true →
      (memOperand i).isSome = true ∨ i.row.mode = .accumulator)

/-- The eight branches: taken when the tested flag matches, 2 cycles if not, one more if taken, one more if the
target lies on another page than the next instruction; the target is the next address plus the signed offset, modulo
65536; no flag changes (R149, R158, R260 to R268). -/
def Obligations.BranchesComplete : Prop :=
  ∀ (i : Instr) (s : State) (f : Flag) (v : Bool) (off : Int), branchOf i = some (f, v, off) →
    ∃ nextPc target : Addr, nextPc.toNat = (s.cpu.pc.toNat + 1) % 65536 ∧
      (target.toNat : Int) = (nextPc.toNat + off) % 65536 ∧
      (flagOf f s.cpu.p = v →
        exec i s = .next (charge (2 + 1 + if nextPc.toNat / 256 = target.toNat / 256 then 0 else 1) (s.setPc target))) ∧
      (flagOf f s.cpu.p ≠ v → exec i s = .next (charge 2 (s.setPc nextPc)))

/-- JMP absolute and indirect. The pointer's high byte comes from the next address, or, with JMP_INDIRECT_PAGE_WRAP, from
the same page (R153, R278, R279; the parameter is the spec's decision D13: the statement holds under both settings). -/
def Obligations.JumpsComplete : Prop :=
  ∀ (s : State) (a : Addr),
    exec (.jmpAbs a) s = .next (charge 3 (s.setPc a)) ∧
    ∃ hiAddr : Addr,
      hiAddr.toNat = (if s.cfg.jmpIndirectPageWrap then a.toNat / 256 * 256 + (a.toNat + 1) % 256
        else (a.toNat + 1) % 65536) ∧
      exec (.jmpInd a) s =
        let lo := memRead a s
        let hi := memRead hiAddr lo.2
        .next (charge 5 (hi.2.setPc (word hi.1 lo.1)))

/-- JSR stores the address of its last byte, high byte at `$0100 + S`, low byte below it, and jumps; RTS pulls low
then high byte and adds 1 (R202, R280, R281). On entry `PC` is the opcode's address plus one. -/
def Obligations.SubroutineCallsComplete : Prop :=
  ∀ (s : State) (a : Addr),
    exec (.jsr a) s = .next (charge 6 (((memWrite (word 1 (s.cpu.s - 1)) (loByte (s.cpu.pc + 1))
      (memWrite (word 1 s.cpu.s) (hiByte (s.cpu.pc + 1)) s)).setS (s.cpu.s - 2)).setPc a)) ∧
    exec .rts s = .next (charge 6 ((s.setS (s.cpu.s + 2)).setPc
      (word (peek (word 1 (s.cpu.s + 2)) s) (peek (word 1 (s.cpu.s + 1)) s) + 1)))

/-- BRK stores the opcode's address plus two and `P` with B set, sets I and loads `PC` from $FFFE; RTI pulls `P`
(B to 0, U to 1) and `PC`, adding nothing (R282, R283; RTI is the spec's decision D14). -/
def Obligations.BrkAndRtiComplete : Prop :=
  ∀ s : State,
    (∃ q, flagOf .i q = true ∧ SameFlagsBut [.i] s.cpu.p q ∧
      let t := memWrite (word 1 (s.cpu.s - 2)) (s.cpu.p ||| 0x10) (memWrite (word 1 (s.cpu.s - 1))
        (loByte (s.cpu.pc + 1)) (memWrite (word 1 s.cpu.s) (hiByte (s.cpu.pc + 1)) s))
      exec .brk s = .next (charge 7 (((t.setS (s.cpu.s - 3)).setP q).setPc
        (word (peek 0xFFFF s) (peek 0xFFFE s))))) ∧
    (∃ q, flagOf .b q = false ∧ flagOf .u q = true ∧ SameFlagsBut [.b, .u] (peek (word 1 (s.cpu.s + 1)) s) q ∧
      exec .rti s = .next (charge 6 (((s.setS (s.cpu.s + 3)).setP q).setPc
        (word (peek (word 1 (s.cpu.s + 3)) s) (peek (word 1 (s.cpu.s + 2)) s)))))

/-- The seven flag instructions write their one flag and nothing else; the NOPs, official and undocumented, change
nothing but `PC` and the debt: no data access, one more cycle where Absolute,X crosses a page (R285 to R292, R300 to
R305; no data access is the spec's decision D12). -/
def Obligations.FlagInstructionsAndNopsComplete : Prop :=
  ∀ (i : Instr) (s : State),
    (∀ f v, flagWriteOf i = some (f, v) → ∃ q, flagOf f q = v ∧ SameFlagsBut [f] s.cpu.p q ∧
      exec i s = .next (concluded i false (s.setP q))) ∧
    (i.row.mnemonic = .nop → ∃ crossed, (∀ o, memOperand i = some o → crossed = (resolve o s).crossed) ∧
      exec i s = .next (concluded i crossed s))

/-- DCM decrements the byte at the effective address and compares A with it; ISB increments it and subtracts it from
A exactly as SBC does, in decimal too; neither pays for a crossed page (R308, R309). -/
def Obligations.DcmAndIsbComplete : Prop :=
  ∀ (i : Instr) (s : State),
    (i.row.mnemonic = .dcm → ∃ o b q, memOperand i = some o ∧ b = (readAt o s).value - 1 ∧
      CNZFrom (decide (b.toNat ≤ s.cpu.a.toNat)) (s.cpu.a - b) s.cpu.p q ∧
      exec i s = .next (concluded i false ((memWrite (resolve o s).ea b (readAt o s).st).setP q))) ∧
    (i.row.mnemonic = .isb → ∃ o b res q n, memOperand i = some o ∧ b = (readAt o s).value + 1 ∧
      exec i s = .next (concluded i false
        ((((memWrite (resolve o s).ea b (readAt o s).st).setA res).setP q).setFreeCount n)) ∧
      (¬ Decimal s → BinarySub s.cpu.a b s.cpu.p res q ∧ n = s.freeCount) ∧
      (Decimal s → SameFlagsBut [.c, .v, .n, .z] s.cpu.p q ∧
        (IsBcd s.cpu.a → IsBcd b → DecimalSub s.cpu.a b s.cpu.p res q)))

/-! ### Operands -/

/-- The effective address of each mode with a data address, as a number: index sums of the zero-page modes and the
second pointer byte wrap in page 0, 16-bit sums wrap modulo 65536, `crossed` compares the high bytes (R146 to R148,
R150 to R152, R154, R155; the 16-bit wrap is the spec's decision D32). Pointers are read through page 0, so finding an
operand changes nothing. -/
def Obligations.EffectiveAddresses : Prop :=
  ∀ (s : State) (b : Byte) (a : Addr), let lo := fun p : Nat => (peek (BitVec.ofNat 16 (p % 256)) s).toNat
    let ptr := fun p : Nat => lo p + 256 * lo (p + 1)
    (∀ o, (resolve o s).st = s) ∧
    (resolve (.zp b) s).ea.toNat = b.toNat ∧ (resolve (.zp b) s).crossed = false ∧
    (resolve (.zpX b) s).ea.toNat = (b.toNat + s.cpu.x.toNat) % 256 ∧ (resolve (.zpX b) s).crossed = false ∧
    (resolve (.zpY b) s).ea.toNat = (b.toNat + s.cpu.y.toNat) % 256 ∧ (resolve (.zpY b) s).crossed = false ∧
    (resolve (.abs a) s).ea = a ∧ (resolve (.abs a) s).crossed = false ∧
    (resolve (.absX a) s).ea.toNat = (a.toNat + s.cpu.x.toNat) % 65536 ∧
    (resolve (.absX a) s).crossed = decide (a.toNat / 256 ≠ (resolve (.absX a) s).ea.toNat / 256) ∧
    (resolve (.absY a) s).ea.toNat = (a.toNat + s.cpu.y.toNat) % 65536 ∧
    (resolve (.absY a) s).crossed = decide (a.toNat / 256 ≠ (resolve (.absY a) s).ea.toNat / 256) ∧
    (resolve (.indX b) s).ea.toNat = ptr (b.toNat + s.cpu.x.toNat) ∧ (resolve (.indX b) s).crossed = false ∧
    (resolve (.indY b) s).ea.toNat = (ptr b.toNat + s.cpu.y.toNat) % 65536 ∧
    (resolve (.indY b) s).crossed = decide (ptr b.toNat / 256 ≠ (resolve (.indY b) s).ea.toNat / 256)

/-! ### What instructions leave alone -/

/-- An instruction changes only the flags it is listed to write (R24). -/
def Obligations.FlagsKeptByOtherInstructions : Prop :=
  ∀ (i : Instr) (s t : State), exec i s = .next t → SameFlagsBut (flagsWritten i.row.mnemonic) s.cpu.p t.cpu.p

/-- An instruction changes only the registers among A, X, Y, S it is listed to write, and the accumulator forms of the
shifts A; S among them for the instructions that push or pull (files 41 to 46). -/
def Obligations.RegistersKeptByOtherInstructions : Prop :=
  ∀ (i : Instr) (s t : State) (r : Reg), exec i s = .next t → r ∉ regsWritten i.row.mnemonic →
    (i.row.mode = .accumulator → r ≠ .a) → regOf r t.cpu = regOf r s.cpu

/-- No instruction changes the configuration, the pending interrupt, the fault, the tick count, or the dot machine's
own state (position, frame count, shifters, staging bytes, frame buffer); only ADC, SBC and ISB draw free values; and
the debt rises by exactly the cycles the step returns, less `CPU_DEBT_BIAS`, and by 513 more for a store to $4014. Those
cycles are the row's, which are the ones of its access class and mode, and the penalties (R95, R126, R140, R142, R157 to
R159, R394, R395; the addition and the bias are the spec's decision D3). `charge` and `concluded`, in which the completion
statements are written, are pinned here too. -/
def Obligations.InstructionsLeaveTheRestAlone : Prop :=
  (DebtBias.zero.amount = 0 ∧ DebtBias.one.amount = 1) ∧
  (∀ (n : Nat) (s : State), charge n s = s.setCycles (s.cpu.cycles + n - s.cfg.debtBias.amount)) ∧
  (∀ (i : Instr) (crossed : Bool) (s : State), concluded i crossed s =
    charge (i.row.cycles + if i.row.penalty = .cross ∧ crossed = true then 1 else 0)
      (s.setPc (s.cpu.pc + BitVec.ofNat 16 ((encode i).length - 1)))) ∧
  (∀ i : Instr, timing i.row.mnemonic i.row.mode = some (i.row.cycles, i.row.penalty)) ∧
  ∀ (i : Instr) (s t : State), exec i s = .next t →
    let toDma := s.cfg.bus = .system ∧ storesToOperand i.row.mnemonic = true ∧
      ∃ o, memOperand i = some o ∧ (resolve o s).ea = 0x4014
    (∀ o, memOperand i = some o → instructionCycles i s =
      i.row.cycles + if i.row.penalty = .cross ∧ (resolve o s).crossed = true then 1 else 0) ∧
    (∀ f v off, branchOf i = some (f, v, off) → instructionCycles i s =
      2 + if flagOf f s.cpu.p = v then
        1 + (if (branchNext s).toNat / 256 = (branchTarget off s).toNat / 256 then 0 else 1) else 0) ∧
    (memOperand i = none → branchOf i = none → instructionCycles i s = i.row.cycles) ∧
    (toDma → t.cpu.cycles + s.cfg.debtBias.amount = s.cpu.cycles + instructionCycles i s + 513) ∧
    (¬ toDma → t.cpu.cycles + s.cfg.debtBias.amount = s.cpu.cycles + instructionCycles i s) ∧
    t.cfg = s.cfg ∧ t.cpu.pending = s.cpu.pending ∧ t.cpu.fault = s.cpu.fault ∧ t.tickCount = s.tickCount ∧
    SameDotState s.ppu t.ppu ∧
    (i.row.mnemonic ≠ .adc → i.row.mnemonic ≠ .sbc → i.row.mnemonic ≠ .isb → t.freeCount = s.freeCount) ∧
    s.cpu.cycles + 1 ≤ t.cpu.cycles

/-- An instruction that stores nothing leaves every memory and every PPU register but for the read effects of $2002
and $2007, and every address that is not a PPU register or $4014 reads as before (R75, R156). -/
def Obligations.MemoryKeptByInstructionsThatStoreNothing : Prop :=
  ∀ (i : Instr) (s t : State), exec i s = .next t → storesByte i = false →
    OnlyReadEffects (s.setCpu t.cpu) (t.setFreeCount s.freeCount) ∧
    ∀ a : Addr, plainCell s.cfg a = true → peek a t = peek a s

/-- An instruction that stores to its operand changes only the cell the operand's address names: every address of
another cell reads as before; and if that address is no PPU register and not $4014, the PPU does not change (R72,
R156). The address is the one `resolve` finds, as the meaning does. -/
def Obligations.MemoryKeptBesideTheStoredByte : Prop :=
  ∀ (i : Instr) (o : MemOperand) (s t : State), storesToOperand i.row.mnemonic = true → memOperand i = some o →
    exec i s = .next t →
    (∀ a : Addr, plainCell s.cfg a = true → route s.cfg a ≠ route s.cfg (resolve o s).ea → peek a t = peek a s) ∧
    (plainCell s.cfg (resolve o s).ea = true → t.ppu = s.ppu ∧ t.chrRam = s.chrRam)

/-- An instruction that pushes `n` bytes changes only the `n` cells of the stack page from `$0100 + S` down: every
address of another cell reads as before, and the PPU does not change (R200, R202, R203, R204, R280, R282). -/
def Obligations.MemoryKeptBesideThePushedBytes : Prop :=
  ∀ (i : Instr) (s t : State), 0 < pushCount i.row.mnemonic → exec i s = .next t →
    t.ppu = s.ppu ∧ t.chrRam = s.chrRam ∧
    ∀ a : Addr, plainCell s.cfg a = true →
      (∀ k, k < pushCount i.row.mnemonic → route s.cfg a ≠ route s.cfg (word 1 (s.cpu.s - BitVec.ofNat 8 k))) →
      peek a t = peek a s

/-! ### The CPU bus -/

/-- Reads and writes by address range: RAM, the PPU port, the zero stub and $4014, PRG-RAM, PRG-ROM; and the flat RAM of
the stand-alone CPU (R71, R72, R76, R459; the stub's reads and the discarded writes are the spec's decision D25). -/
def Obligations.BusRouting : Prop :=
  ∀ (s : State) (a : Addr) (b : Byte),
    (s.cfg.bus = .flat → memRead a s = (s.flatMem.read a.toNat, s) ∧
      memWrite a b s = s.setFlatMem (s.flatMem.write a.toNat b)) ∧
    (s.cfg.bus = .system →
      (a.toNat < 0x2000 → memRead a s = (s.ram.read (a.toNat % 0x800), s) ∧
        memWrite a b s = s.setRam (s.ram.write (a.toNat % 0x800) b)) ∧
      (0x2000 ≤ a.toNat → a.toNat < 0x4000 → ∃ r : BitVec 3, r.toNat = a.toNat % 8 ∧ memRead a s = ppuRegRead r s ∧
        memWrite a b s = ppuRegWrite r b s) ∧
      (0x4000 ≤ a.toNat → a.toNat < 0x6000 → memRead a s = (0, s) ∧ (a.toNat ≠ 0x4014 → memWrite a b s = s)) ∧
      (0x6000 ≤ a.toNat → a.toNat < 0x8000 →
        (s.cfg.hasPrgRam = true → memRead a s = (s.prgRam.read (a.toNat - 0x6000), s) ∧
          memWrite a b s = s.setPrgRam (s.prgRam.write (a.toNat - 0x6000) b)) ∧
        (s.cfg.hasPrgRam = false → memRead a s = (0, s) ∧ memWrite a b s = s)) ∧
      (0x8000 ≤ a.toNat → memWrite a b s = s ∧
        (s.cfg.prgBanks = .two → memRead a s = (s.cfg.prgRom.read (a.toNat - 0x8000), s)) ∧
        (s.cfg.prgBanks = .one → memRead a s = (s.cfg.prgRom.read ((a.toNat - 0x8000) % 0x4000), s))))

/-- The mirroring laws: an address below $0800 and its three mirrors read the same, and a write to one is seen at all
four; an address of $2000-$3FFF is the register its last three bits name. -/
def Obligations.RamMirrors : Prop :=
  ∀ (s : State) (a : Addr) (b : Byte) (k l : Nat), s.cfg.bus = .system → s.ram.wf = true → a.toNat < 0x800 → k < 4 →
    l < 4 →
    memRead (a + BitVec.ofNat 16 (k * 0x800)) s = memRead a s ∧
    (memRead (a + BitVec.ofNat 16 (k * 0x800)) (memWrite (a + BitVec.ofNat 16 (l * 0x800)) b s)).1 = b ∧
    ∀ c : Addr, 0x2000 ≤ c.toNat → c.toNat < 0x4000 → let r := BitVec.ofNat 16 (0x2000 + c.toNat % 8)
      memRead c s = memRead r s ∧ memWrite c b s = memWrite r b s

/-- Only $2002, $2007 and their mirrors have a read with a side effect, which moves `v` at $2007 and clears a set toggle
at $2002; only $2000-$3FFF and $4014 have a write that changes anything but the addressed byte. -/
def Obligations.OnlyTwoPortsHaveReadEffects : Prop :=
  ∀ (s : State) (a : Addr) (b : Byte),
    ((memRead a s).2 ≠ s →
      s.cfg.bus = .system ∧ 0x2000 ≤ a.toNat ∧ a.toNat < 0x4000 ∧ (a.toNat % 8 = 2 ∨ a.toNat % 8 = 7)) ∧
    (s.cfg.bus = .system → 0x2000 ≤ a.toNat → a.toNat < 0x4000 →
      a.toNat % 8 = 2 ∧ s.ppu.w = true ∨ a.toNat % 8 = 7 → (memRead a s).2 ≠ s) ∧
    (¬ (s.cfg.bus = .system ∧ (0x2000 ≤ a.toNat ∧ a.toNat < 0x4000 ∨ a.toNat = 0x4014)) →
      (memWrite a b s).cpu = s.cpu ∧ (memWrite a b s).ppu = s.ppu ∧ (memWrite a b s).cfg = s.cfg ∧
      ∀ c : Addr, plainCell s.cfg c = true → route s.cfg c ≠ route s.cfg a → peek c (memWrite a b s) = peek c s)

/-- A byte written to RAM, PRG-RAM or the flat RAM is what every address of that cell reads next, and no other plain
cell changes (R96). -/
def Obligations.ReadGivesTheLastWrite : Prop :=
  ∀ (s : State) (a c : Addr) (b : Byte), s.Inv → plainCell s.cfg c = true →
    ((∃ i, route s.cfg a = .ram i ∨ route s.cfg a = .prgRam i ∨ route s.cfg a = .flat i) → route s.cfg c = route s.cfg a →
      peek c (memWrite a b s) = b) ∧
    (route s.cfg c ≠ route s.cfg a → peek c (memWrite a b s) = peek c s)

/-- A write of `val` to $4014 copies page `val` to OAM from `oam_addr` on and around, leaves `oam_addr`, adds 513 to the
debt, and changes nothing else, for every page but those of the PPU port, whose reads have effects; for those
`oam_addr` and the debt are as for any page (R395; the order of the reads is the spec's decision D34). -/
def Obligations.OamDmaCopiesThePage : Prop :=
  ∀ (s : State) (val : Byte), s.cfg.bus = .system → s.Inv → let t := memWrite 0x4014 val s
    t.cpu.cycles = s.cpu.cycles + 513 ∧ t.ppu.oamAddr = s.ppu.oamAddr ∧
    (¬ (0x20 ≤ val.toNat ∧ val.toNat < 0x40) →
      t = (s.setPpu { s.ppu with oam := t.ppu.oam }).setCycles (s.cpu.cycles + 513) ∧
      ∀ i, i < 256 → t.ppu.oam.read ((s.ppu.oamAddr.toNat + i) % 256) = peek (BitVec.ofNat 16 (val.toNat * 256 + i)) s)

/-! ### Stack laws -/

/-- The round trips of the stack: PHA then PLA restores A and S with N and Z from the byte; PHP then PLP restores P with
B clear and U set; a push then a pop gives the byte back and restores S, for every S, across the wrap too. -/
def Obligations.PushThenPopRestores : Prop :=
  ∀ s : State, s.Inv →
    (∀ t u, exec .pha s = .next t → exec .pla t = .next u → u.cpu.a = s.cpu.a ∧ u.cpu.s = s.cpu.s ∧
      NZFrom s.cpu.a s.cpu.p u.cpu.p) ∧
    (∀ t u, exec .php s = .next t → exec .plp t = .next u → u.cpu.s = s.cpu.s ∧ flagOf .b u.cpu.p = false ∧
      flagOf .u u.cpu.p = true ∧ SameFlagsBut [.b, .u] s.cpu.p u.cpu.p) ∧
    (∀ b : Byte, (pop (push b s)).1 = b ∧ (pop (push b s)).2.cpu.s = s.cpu.s ∧
      ∀ w : Addr, (pop16 (push16 w s)).1 = w ∧ (pop16 (push16 w s)).2.cpu.s = s.cpu.s)

/-- JSR then RTS returns to the instruction after the JSR, whatever the subroutine does, if it leaves S and the two
stack bytes as it found them (R281). On entry to JSR `PC` is the opcode's address plus one. -/
def Obligations.JsrThenRtsReturns : Prop :=
  ∀ (s t u : State) (a : Addr), s.Inv → exec (.jsr a) s = .next t → u.cpu.s = t.cpu.s →
    peek (word 1 (t.cpu.s + 1)) u = peek (word 1 (t.cpu.s + 1)) t →
    peek (word 1 (t.cpu.s + 2)) u = peek (word 1 (t.cpu.s + 2)) t →
    ∃ v, exec .rts u = .next v ∧ v.cpu.pc = s.cpu.pc + 2 ∧ v.cpu.s = s.cpu.s

/-! ### Interrupts -/

/-- A pending interrupt is taken before the instruction at `PC`, which is not fetched: `PC` high, `PC` low and the status
image with B clear and U set go on the stack, I is set, `PC` comes from the vector, 7 or 8 cycles are charged, the slot
is cleared, nothing else changes (R140, R414, R415; the image is the spec's decision D15). -/
def Obligations.InterruptEntrySavesAndVectors : Prop :=
  ∀ (s : State) (k : Interrupt), let u := cpuSees s
    let vec : Addr := match k with
      | .nmi => 0xFFFA
      | .irq => 0xFFFE
    cpuTurn s = true → u.cpu.fault = none → u.cpu.cycles = 0 → u.cpu.pending = some k →
    ∃ img q, flagOf .b img = false ∧ flagOf .u img = true ∧ SameFlagsBut [.b, .u] u.cpu.p img ∧
      flagOf .i q = true ∧ SameFlagsBut [.i] u.cpu.p q ∧
      step s = finishStep s (.next ((charge (match k with
        | .nmi => 7
        | .irq => 8) ((((memWrite (word 1 (u.cpu.s - 2)) img (memWrite (word 1 (u.cpu.s - 1)) (loByte u.cpu.pc)
          (memWrite (word 1 u.cpu.s) (hiByte u.cpu.pc) u))).setS (u.cpu.s - 3)).setP q).setPc
          (word (peek (vec + 1) u) (peek vec u)))).setPending none))

/-- A trigger of NMI always takes the slot; a trigger of IRQ is dropped while I is set, and does not replace an NMI; in
either order of both the NMI stays (R412 to R414; that NMI wins is the spec's decision D16). -/
def Obligations.InterruptTriggers : Prop :=
  ∀ s : State,
    triggerNmi s = s.setPending (some .nmi) ∧
    (flagOf .i s.cpu.p = true → triggerIrq s = s) ∧
    (flagOf .i s.cpu.p = false → s.cpu.pending ≠ some .nmi → triggerIrq s = s.setPending (some .irq)) ∧
    (s.cpu.pending = some .nmi → triggerIrq s = s) ∧
    (triggerNmi (triggerIrq s)).cpu.pending = some .nmi ∧ (triggerIrq (triggerNmi s)).cpu.pending = some .nmi

/-- RTI after an interrupt entry resumes the interrupted instruction with its flags, and RTI after BRK resumes two bytes
past the opcode, if the handler leaves S and the three stack bytes as it found them (R283, R418; RTI is the spec's
decision D14). -/
def Obligations.RtiResumes : Prop :=
  ∀ (s t u : State), s.Inv →
    u.cpu.s = t.cpu.s → (∀ k : Byte, k = 1 ∨ k = 2 ∨ k = 3 → peek (word 1 (t.cpu.s + k)) u = peek (word 1 (t.cpu.s + k)) t) →
    (∀ k, s.cpu.fault = none → s.cpu.pending = some k → cpuStep s = .next t →
      ∃ v, exec .rti u = .next v ∧ v.cpu.pc = s.cpu.pc ∧ v.cpu.p = s.cpu.p ∧ v.cpu.s = s.cpu.s) ∧
    (exec .brk s = .next t →
      ∃ v, exec .rti u = .next v ∧ v.cpu.pc = s.cpu.pc + 1 ∧ v.cpu.p = s.cpu.p ∧ v.cpu.s = s.cpu.s)

/-! ### Reset and invariants -/

/-- The reset of the CPU and of the block: I and U set, `PC` from $FFFC, the debt, the pending interrupt and the fault
cleared; position, frame, toggle, ctrl, mask, status and odd-frame cleared; nothing else changes (R441 to R443; clearing
the slot and the fault, and what a system reset is, are the spec's decisions D9, D17, D29). -/
def Obligations.ResetClears : Prop :=
  ∀ s : State,
    (∃ q, flagOf .i q = true ∧ flagOf .u q = true ∧ SameFlagsBut [.i, .u] s.cpu.p q ∧
      cpuReset s = s.setCpu { s.cpu with
        p := q, pc := word (peek 0xFFFD s) (peek 0xFFFC s), cycles := 0, pending := none, fault := none }) ∧
    systemReset s = cpuReset (s.setPpu { s.ppu with
      dot := 0, scanline := 0, frame := 0, oddFrame := false, w := false, ctrl := 0, mask := 0, status := 0 })

/-- For every accepted configuration the state after power-on meets the invariant, and so does `State.reset`, the power-on
of the default configuration (R51, R440; the default configuration and the launch values are log entries 2 to 4). -/
def Obligations.PowerOnMeetsTheInvariant : Prop :=
  (∀ c : Config, c.wf = true → (powerOn c).Inv) ∧ State.reset.Inv

/-- Every step keeps the invariant: the memories keep their canonical form and their sizes, `P` keeps U = 1 and B = 0,
the position stays in the frame, `odd_frame` stays the parity of `frame`, the unused status bits stay 0. -/
def Obligations.StepKeepsTheInvariant : Prop :=
  ∀ s t : State, s.Inv → step s = .next t → t.Inv

/-- `P.U == 1` and `P.B == 0` hold after power-on, which ends with the first reset; once they hold, they hold after every
instruction, every step and every reset; PLP and RTI, which write all of `P`, make them hold whatever they pull. -/
def Obligations.StatusBitsUAndBHold : Prop :=
  (∀ c : Config, flagOf .u (powerOn c).cpu.p = true ∧ flagOf .b (powerOn c).cpu.p = false) ∧
  ∀ s t : State,
    (flagOf .u s.cpu.p = true → flagOf .b s.cpu.p = false →
      step s = .next t ∨ (∃ i, exec i s = .next t) ∨ t = systemReset s ∨ cpuStep s = .next t →
      flagOf .u t.cpu.p = true ∧ flagOf .b t.cpu.p = false) ∧
    (exec .plp s = .next t ∨ exec .rti s = .next t → flagOf .u t.cpu.p = true ∧ flagOf .b t.cpu.p = false)

/-- A step of the stand-alone CPU changes nothing of the PPU, of the block's RAM and cartridge, nor the tick count: it has
a flat RAM for a bus and no DMA (R459). That its step is a CPU tick is log entry 9. -/
def Obligations.StandAloneCpuHasNoPpu : Prop :=
  ∀ s t : State, s.cfg.bus = .flat → step s = .next t →
    t.ppu = s.ppu ∧ t.ram = s.ram ∧ t.prgRam = s.prgRam ∧ t.chrRam = s.chrRam ∧ t.tickCount = s.tickCount ∧
    t.cfg = s.cfg

/-! ### The PPU port -/

/-- Writes of PPUMASK, OAMADDR, OAMDATA, PPUSCROLL, PPUADDR, PPUDATA and the OAMDATA read, at every mirror of the
register: fields of `t` by name, the toggle, the increment of `v` by 1 or 32 modulo 32768. -/
def Obligations.PpuPortWritesAndOamRead : Prop :=
  ∀ (s : State) (a : Addr) (b : Byte), s.cfg.bus = .system → 0x2000 ≤ a.toNat → a.toNat < 0x4000 → let u := s.ppu
    (a.toNat % 8 = 1 → memWrite a b s = s.setPpu { u with mask := b }) ∧
    (a.toNat % 8 = 3 → memWrite a b s = s.setPpu { u with oamAddr := b }) ∧
    (a.toNat % 8 = 4 → memRead a s = (u.oam.read u.oamAddr.toNat, s) ∧
      memWrite a b s = s.setPpu { u with oam := u.oam.write u.oamAddr.toNat b, oamAddr := u.oamAddr + 1 }) ∧
    (a.toNat % 8 = 5 → ∃ t x, memWrite a b s = s.setPpu { u with t := t, x := x, w := !u.w } ∧
      ntX t = ntX u.t ∧ ntY t = ntY u.t ∧
      (u.w = false → (coarseX t).toNat = b.toNat / 8 ∧ x.toNat = b.toNat % 8 ∧ coarseY t = coarseY u.t ∧
        fineY t = fineY u.t) ∧
      (u.w = true → (coarseY t).toNat = b.toNat / 8 ∧ (fineY t).toNat = b.toNat % 8 ∧ coarseX t = coarseX u.t ∧
        x = u.x)) ∧
    (a.toNat % 8 = 6 → ∃ t v, memWrite a b s = s.setPpu { u with t := t, v := v, w := !u.w } ∧
      (u.w = false → t.toNat = b.toNat % 64 * 256 + u.t.toNat % 256 ∧ v = u.v) ∧
      (u.w = true → t.toNat = u.t.toNat / 256 * 256 + b.toNat ∧ v = t)) ∧
    (a.toNat % 8 = 7 → ∃ v : BitVec 15, v.toNat = (u.v.toNat + if u.ctrl.getLsbD 2 then 32 else 1) % 32768 ∧
      let t := ppuWrite (BitVec.ofNat 16 (u.v.toNat % 0x4000)) b s
      memWrite a b s = t.setPpu { t.ppu with v := v })

/-- PPUCTRL copies bits 0 and 1 into the nametable bits of `t` and raises no NMI; a PPUSTATUS write does nothing; reads of
the write-only registers give 0; PPUSTATUS gives VBLANK with the old buffer's low bits and clears VBLANK and the toggle;
PPUDATA gives the old buffer below $3F00, the palette byte at once above, refills the buffer and moves `v` (R321, R323,
R324, R329, R331; D20, D21, D28 are the spec's decisions). -/
def Obligations.PpuPortControlAndReads : Prop :=
  ∀ (s : State) (a : Addr) (b : Byte), s.cfg.bus = .system → 0x2000 ≤ a.toNat → a.toNat < 0x4000 → let u := s.ppu
    (a.toNat % 8 = 0 → ∃ t, memWrite a b s = s.setPpu { u with ctrl := b, t := t } ∧ ntX t = b.getLsbD 0 ∧
      ntY t = b.getLsbD 1 ∧ coarseX t = coarseX u.t ∧ coarseY t = coarseY u.t ∧ fineY t = fineY u.t) ∧
    (a.toNat % 8 = 2 → memWrite a b s = s ∧ ∃ r : Byte, (∀ n, n < 8 → r.getLsbD n =
        if 5 ≤ n then u.status.getLsbD n else u.bufferData.getLsbD n) ∧
      memRead a s = (r, s.setPpu { u with status := u.status &&& 0x7F, w := false })) ∧
    (a.toNat % 8 = 0 ∨ a.toNat % 8 = 1 ∨ a.toNat % 8 = 3 ∨ a.toNat % 8 = 5 ∨ a.toNat % 8 = 6 → memRead a s = (0, s)) ∧
    (a.toNat % 8 = 7 → ∃ v : BitVec 15, v.toNat = (u.v.toNat + if u.ctrl.getLsbD 2 then 32 else 1) % 32768 ∧
      let m := ppuRead (BitVec.ofNat 16 (u.v.toNat % 0x4000)) s
      memRead a s = (if 0x3F00 ≤ u.v.toNat % 0x4000 then m else u.bufferData,
        s.setPpu { u with bufferData := m, v := v }))

/-! ### The PPU's address space -/

/-- The palette law: a byte written to $3F10, $3F14, $3F18 or $3F1C is read at $3F00, $3F04, $3F08, $3F0C, and back; the
palette repeats every 32 bytes up to $3FFF and the whole space every $4000; a palette write changes no palette entry
but the one written and its alias, and no byte below $3F00. -/
def Obligations.PaletteMirrors : Prop :=
  ∀ (s : State) (b : Byte) (k j l n : Nat), s.Inv → k < 4 → j < 32 → l < 32 → n < 8 →
    ppuRead (BitVec.ofNat 16 (0x3F00 + 4 * k)) (ppuWrite (BitVec.ofNat 16 (0x3F10 + 4 * k)) b s) = b ∧
    ppuRead (BitVec.ofNat 16 (0x3F10 + 4 * k)) (ppuWrite (BitVec.ofNat 16 (0x3F00 + 4 * k)) b s) = b ∧
    ppuRead (BitVec.ofNat 16 (0x3F00 + j + 32 * n)) (ppuWrite (BitVec.ofNat 16 (0x3F00 + j)) b s) = b ∧
    (l ≠ j → (l % 4 = 0 → l % 16 ≠ j % 16) →
      ppuRead (BitVec.ofNat 16 (0x3F00 + l)) (ppuWrite (BitVec.ofNat 16 (0x3F00 + j)) b s) =
        ppuRead (BitVec.ofNat 16 (0x3F00 + l)) s) ∧
    (∀ a : Addr, a.toNat % 0x4000 < 0x3F00 →
      ppuRead a (ppuWrite (BitVec.ofNat 16 (0x3F00 + j)) b s) = ppuRead a s) ∧
    (∀ a : Addr, ppuRead (a + 0x4000) s = ppuRead a s ∧ ppuWrite (a + 0x4000) b s = ppuWrite a b s)

/-- The nametables: a byte written at an offset of table `i` is read at that offset of table `j` exactly when the mirroring
makes the two share (horizontal: 0 with 1, 2 with 3; vertical: 0 with 2, 1 with 3), and at $3000-$3EFF too; no other cell
of the PPU's space changes. Below $2000 stands the pattern memory: with `CHR_IS_RAM` its cells are the CHR-RAM, read back
after a write, which changes no other cell; without, they are CHR and a write changes nothing (R80 to R84; that a pattern
write goes to the CHR-RAM or nowhere is the spec's decision D24). -/
def Obligations.NametablesShare : Prop :=
  ∀ (s : State) (b : Byte) (i j o p : Nat), s.Inv → i < 4 → j < 4 → o < 0x400 → p < 0x400 →
    let t := ppuWrite (BitVec.ofNat 16 (0x2000 + 0x400 * i + o)) b s
    let share := match s.cfg.mirroring with
      | .horizontal => i / 2 = j / 2
      | .vertical => i % 2 = j % 2
    (share ∧ o = p → ppuRead (BitVec.ofNat 16 (0x2000 + 0x400 * j + p)) t = b) ∧
    (¬ (share ∧ o = p) → ppuRead (BitVec.ofNat 16 (0x2000 + 0x400 * j + p)) t =
      ppuRead (BitVec.ofNat 16 (0x2000 + 0x400 * j + p)) s) ∧
    (0x400 * j + p < 0xF00 → ppuRead (BitVec.ofNat 16 (0x3000 + 0x400 * j + p)) t =
      ppuRead (BitVec.ofNat 16 (0x2000 + 0x400 * j + p)) t) ∧
    (∀ a : Addr, a.toNat % 0x4000 < 0x2000 ∨ 0x3F00 ≤ a.toNat % 0x4000 → ppuRead a t = ppuRead a s) ∧
    ∀ a : Addr, a.toNat % 0x4000 < 0x2000 → let w := ppuWrite a b s
      ppuRead a s = (if s.cfg.chrIsRam then s.chrRam.read (a.toNat % 0x4000) else s.cfg.chr.read (a.toNat % 0x4000)) ∧
      (s.cfg.chrIsRam = false → w = s) ∧
      (s.cfg.chrIsRam = true → w = s.setChrRam w.chrRam ∧ ppuRead a w = b ∧
        ∀ c : Addr, c.toNat % 0x4000 ≠ a.toNat % 0x4000 → ppuRead c w = ppuRead c s)

/-! ### The dot machine -/

/-- VBLANK is set, and NMI raised if enabled, only by dot (241, 1); bits 7 to 5 of the status are cleared only by dot
(261, 1); no other dot changes the status or the interrupt slot, so the sprite bits are never set (R352, R353, R374; that
nothing else raises or withdraws an NMI is the spec's decision D28, the absence of sprites D26). -/
def Obligations.StatusChangesAtTwoDots : Prop :=
  ∀ s : State, let t := ppuTick s
    (s.ppu.scanline = 241 → s.ppu.dot = 1 → t.ppu.status = s.ppu.status ||| 0x80 ∧
      t.cpu.pending = if s.ppu.ctrl.getLsbD 7 then some .nmi else s.cpu.pending) ∧
    (s.ppu.scanline = 261 → s.ppu.dot = 1 → t.ppu.status = s.ppu.status &&& 0x1F ∧ t.cpu.pending = s.cpu.pending) ∧
    (¬ (s.ppu.dot = 1 ∧ (s.ppu.scanline = 241 ∨ s.ppu.scanline = 261)) →
      t.ppu.status = s.ppu.status ∧ t.cpu.pending = s.cpu.pending)

/-- With rendering disabled a dot moves only the position, the status, the interrupt slot and the frame buffer: `v`, the
shifters and the staging bytes keep their values (R351; the gate is the spec's decision D7). -/
def Obligations.RenderingOffKeepsThePipeline : Prop :=
  ∀ s : State, s.ppu.mask &&& 0x18 = 0 → let u := (ppuTick s).ppu
    u = { s.ppu with
      status := u.status, framebuffer := u.framebuffer, scanline := u.scanline, dot := u.dot, frame := u.frame
      oddFrame := u.oddFrame }

/-- A frame, whatever the program does: from (0, 0), 89340 steps reach (261, 339); there, on an odd frame with rendering
enabled, one more step starts the next frame, else two more do. The position stays in its range after every step. -/
def Obligations.FrameLength : Prop :=
  (∀ s : State, s.cfg.bus = .system → s.ppu.scanline = 0 → s.ppu.dot = 0 →
    ∃ u : State, Host.Core.run core 89340 s = .next u ∧ u.ppu.scanline = 261 ∧ u.ppu.dot = 339 ∧
      u.ppu.frame = s.ppu.frame ∧ u.ppu.oddFrame = s.ppu.oddFrame ∧
      ∃ t : State, Host.Core.run core (if u.ppu.oddFrame = true ∧ u.ppu.mask &&& 0x18 ≠ 0 then 89341 else 89342) s =
          .next t ∧
        t.ppu.scanline = 0 ∧ t.ppu.dot = 0 ∧ t.ppu.frame = s.ppu.frame + 1 ∧ t.ppu.oddFrame = !s.ppu.oddFrame) ∧
  (∀ s t : State, s.ppu.scanline ≤ 261 → s.ppu.dot ≤ 340 → step s = .next t →
    t.ppu.scanline ≤ 261 ∧ t.ppu.dot ≤ 340)

/-- Every visible dot stores one colour index at `(dot - 1) + scanline * 256`, the palette entry the shifters and fine X
name (the backdrop with the background off), greyscale applied, and changes no other entry; no other dot stores (R370 to
R372; the backdrop and the greyscale mask are the spec's decisions D8 and D22). -/
def Obligations.PixelProduction : Prop :=
  ∀ s : State, s.Inv → let u := s.ppu
    let d := u.dot
    let bit := 15 - u.x.toNat
    let p := if u.mask.getLsbD 3 then 2 * (u.patHi.getLsbD bit).toNat + (u.patLo.getLsbD bit).toNat else 0
    let pal := if u.mask.getLsbD 3 then 2 * (u.attrHi.getLsbD bit).toNat + (u.attrLo.getLsbD bit).toNat else 0
    let byte := ppuRead (BitVec.ofNat 16 (0x3F00 + 4 * pal + p)) s
    let visible := u.scanline ≤ 239 ∧ 1 ≤ d ∧ d ≤ 256
    ∀ k, (ppuTick s).ppu.framebuffer.read k =
      if visible ∧ k = (d - 1) + u.scanline * 256
      then (if u.mask.getLsbD 0 then byte &&& 0x30 else byte).setWidth 6
      else u.framebuffer.read k

/-- The fetch pipeline on a fetch dot of a rendered line: all four shifters shift left by one; then the dot's place in its
group of eight fetches the nametable byte, the palette selector, the low or the high pattern byte, or loads the low
halves of the shifters and increments coarse X with the nametable switch at 31. A staging byte stays on every dot that
does not fetch it, and the shifters stay on every dot that is no fetch dot of a rendered line. No dot, whichever it is,
changes `t`, fine X, the toggle, `ctrl`, `mask`, `oam_addr`, the read buffer, VRAM, OAM or palette (R350, R351, R359 to
R366, R374, R375; the order of shift and load is the spec's decision D6, the gate D7, the attribute shifts D23). What `v`
does at dot 256 and outside the fetch dots is another statement's. -/
def Obligations.FetchPipeline : Prop :=
  ∀ s : State, let u := s.ppu
    let t := (ppuTick s).ppu
    let d := u.dot
    let base := if u.ctrl.getLsbD 4 then 0x1000 else 0
    let row := 16 * u.nextTileId.toNat + (fineY u.v).toNat
    let attr := ppuRead (BitVec.ofNat 16 (0x23C0 + 0x800 * (ntY u.v).toNat + 0x400 * (ntX u.v).toNat +
      8 * ((coarseY u.v).toNat / 4) + (coarseX u.v).toNat / 4)) s
    let quadrant := 4 * ((coarseY u.v).toNat / 2 % 2) + 2 * ((coarseX u.v).toNat / 2 % 2)
    let fetches := (u.scanline ≤ 239 ∨ u.scanline = 261) ∧ u.mask &&& 0x18 ≠ 0 ∧
      (1 ≤ d ∧ d ≤ 256 ∨ 321 ≤ d ∧ d ≤ 336)
    (t.t = u.t ∧ t.x = u.x ∧ t.w = u.w ∧ t.ctrl = u.ctrl ∧ t.mask = u.mask ∧ t.oamAddr = u.oamAddr ∧
      t.bufferData = u.bufferData ∧ t.vram = u.vram ∧ t.oam = u.oam ∧ t.palette = u.palette) ∧
    (¬ fetches → t.patLo = u.patLo ∧ t.patHi = u.patHi ∧ t.attrLo = u.attrLo ∧ t.attrHi = u.attrHi) ∧
    (¬ (fetches ∧ d % 8 = 1) → t.nextTileId = u.nextTileId) ∧
    (¬ (fetches ∧ d % 8 = 3) → t.nextTileAttr = u.nextTileAttr) ∧
    (¬ (fetches ∧ d % 8 = 5) → t.nextTileLsb = u.nextTileLsb) ∧
    (¬ (fetches ∧ d % 8 = 7) → t.nextTileMsb = u.nextTileMsb) ∧
    (fetches →
    (d % 8 = 1 → t.nextTileId = ppuRead (BitVec.ofNat 16 (0x2000 + u.v.toNat % 0x1000)) s) ∧
    (d % 8 = 3 → t.nextTileAttr.toNat = attr.toNat / 2 ^ quadrant % 4) ∧
    (d % 8 = 5 → t.nextTileLsb = ppuRead (BitVec.ofNat 16 (base + row)) s) ∧
    (d % 8 = 7 → t.nextTileMsb = ppuRead (BitVec.ofNat 16 (base + row + 8)) s) ∧
    (d % 8 ≠ 0 → t.patLo = u.patLo <<< 1 ∧ t.patHi = u.patHi <<< 1 ∧ t.attrLo = u.attrLo <<< 1 ∧
      t.attrHi = u.attrHi <<< 1 ∧ t.v = u.v) ∧
    (d % 8 = 0 → t.patLo.toNat = u.patLo.toNat * 2 % 65536 / 256 * 256 + u.nextTileLsb.toNat ∧
      t.patHi.toNat = u.patHi.toNat * 2 % 65536 / 256 * 256 + u.nextTileMsb.toNat ∧
      t.attrLo.toNat = u.attrLo.toNat * 2 % 65536 / 256 * 256 + (if u.nextTileAttr.getLsbD 0 then 255 else 0) ∧
      t.attrHi.toNat = u.attrHi.toNat * 2 % 65536 / 256 * 256 + (if u.nextTileAttr.getLsbD 1 then 255 else 0) ∧
      (d ≠ 256 → t.v = packLoopy (fineY u.v) (ntY u.v) (ntX u.v != decide ((coarseX u.v).toNat = 31)) (coarseY u.v)
        (coarseX u.v + 1))))

/-- The scroll updates of `v` on rendered lines: at dot 256 fine Y is incremented, carrying into coarse Y, which turns to 0
at 29 with the nametable switched and at 31 without (coarse X is incremented there too); at dot 257 coarse X and nametable
X are copied from `t`; at dots 280 to 304 of the pre-render line fine Y, nametable Y and coarse Y are. Where the
pre-render line takes no part in the first two, its dot 256 increments coarse X alone and its dot 257 does nothing. At
no other dot does `v` change, but at those that end a group of eight (R350, R351, R359, R367 to R369, R375; the pre-render
line takes part in the first two as PRERENDER_SCROLL_UPDATES says, the spec's decision D38; the gate is D7). -/
def Obligations.ScrollUpdates : Prop :=
  ∀ s : State, let u := s.ppu
    let t := (ppuTick s).ppu
    let line := u.scanline ≤ 239 ∨ u.scanline = 261 ∧ s.cfg.prerenderScrollUpdates = true
    let groupEnd := (u.scanline ≤ 239 ∨ u.scanline = 261) ∧ u.dot % 8 = 0 ∧
      (1 ≤ u.dot ∧ u.dot ≤ 256 ∨ 321 ≤ u.dot ∧ u.dot ≤ 336)
    (¬ (u.mask &&& 0x18 ≠ 0 ∧ (groupEnd ∨ line ∧ u.dot = 257 ∨
      u.scanline = 261 ∧ 280 ≤ u.dot ∧ u.dot ≤ 304)) → t.v = u.v) ∧
    (u.mask &&& 0x18 ≠ 0 →
    (line → u.dot = 256 → (fineY t.v).toNat = ((fineY u.v).toNat + 1) % 8 ∧
      coarseX t.v = coarseX u.v + 1 ∧ ntX t.v = (ntX u.v != decide ((coarseX u.v).toNat = 31)) ∧
      (coarseY t.v).toNat = (if (fineY u.v).toNat < 7 then (coarseY u.v).toNat
        else if (coarseY u.v).toNat = 29 ∨ (coarseY u.v).toNat = 31 then 0 else (coarseY u.v).toNat + 1) ∧
      ntY t.v = (ntY u.v != decide ((fineY u.v).toNat = 7 ∧ (coarseY u.v).toNat = 29))) ∧
    (line → u.dot = 257 → t.v = packLoopy (fineY u.v) (ntY u.v) (ntX u.t) (coarseY u.v) (coarseX u.t)) ∧
    (¬ line → u.scanline = 261 → u.dot = 256 → t.v = packLoopy (fineY u.v) (ntY u.v)
      (ntX u.v != decide ((coarseX u.v).toNat = 31)) (coarseY u.v) (coarseX u.v + 1)) ∧
    (¬ line → u.scanline = 261 → u.dot = 257 → t.v = u.v) ∧
    (u.scanline = 261 → 280 ≤ u.dot → u.dot ≤ 304 →
      t.v = packLoopy (fineY u.t) (ntY u.t) (ntX u.v) (coarseY u.t) (coarseX u.v)))

/-- The frame buffer is an output: two states that differ in it alone step to states that differ in it alone, so nothing
a program or the block does depends on it (R46). That the two draw the same free values is the model's (log entry 5). -/
def Obligations.FramebufferIsAnOutput : Prop :=
  ∀ (s : State) (f g : Memory 6), ∃ t : State, ∃ f' g' : Memory 6,
    step (s.setPpu { s.ppu with framebuffer := f }) = .next (t.setPpu { t.ppu with framebuffer := f' }) ∧
    step (s.setPpu { s.ppu with framebuffer := g }) = .next (t.setPpu { t.ppu with framebuffer := g' })

end Statements
end

