-- ==== Sys2Proof/Laws/Bits.lean ====
section
/-! SUPPORT. The laws of byte order and of branch offsets. -/

namespace Sys2Proof

@[simp] theorem loByte_word (hi lo : Byte) : loByte (word hi lo) = lo := by
  apply BitVec.eq_of_getLsbD_eq
  intro i h
  simp only [loByte, word, BitVec.getLsbD_append, BitVec.getLsbD_setWidth, h, decide_true, Bool.true_and, if_true]

@[simp] theorem hiByte_word (hi lo : Byte) : hiByte (word hi lo) = hi := by
  apply BitVec.eq_of_getLsbD_eq
  intro i h
  simp only [hiByte, word, BitVec.getLsbD_append, BitVec.getLsbD_extractLsb', h, decide_true, Bool.true_and]
  rw [if_neg (by omega), Nat.add_sub_cancel_left]

@[simp] theorem word_hiByte_loByte (a : Addr) : word (hiByte a) (loByte a) = a := by
  apply BitVec.eq_of_getLsbD_eq
  intro i hi
  simp only [hiByte, loByte, word, BitVec.getLsbD_append, BitVec.getLsbD_setWidth, BitVec.getLsbD_extractLsb']
  by_cases h : i < 8
  · simp [h]
  · simp only [if_neg h]
    have : i - 8 < 8 := by omega
    simp only [this, decide_true, Bool.true_and]
    congr 1
    omega

theorem word_toNat (hi lo : Byte) : (word hi lo).toNat = hi.toNat * 256 + lo.toNat := by
  have h := Nat.two_pow_add_eq_or_of_lt lo.isLt hi.toNat
  simp only [word, BitVec.toNat_append, Nat.shiftLeft_eq]
  rw [Nat.mul_comm hi.toNat (2 ^ 8), ← h]

@[simp] theorem zext16_toNat (b : Byte) : (zext16 b).toNat = b.toNat := by
  have := b.isLt
  simp [zext16]
  omega

theorem hiByte_toNat (a : Addr) : (hiByte a).toNat = a.toNat / 256 := by
  have := a.isLt
  simp [hiByte, BitVec.extractLsb'_toNat, Nat.shiftRight_eq_div_pow]
  omega

theorem loByte_toNat (a : Addr) : (loByte a).toNat = a.toNat % 256 := by
  simp [loByte]

/-- Two addresses lie on different pages exactly when they differ above bit 7. -/
theorem pageDiffers_iff (a b : Addr) : pageDiffers a b = decide (a.toNat / 256 ≠ b.toNat / 256) := by
  have h : hiByte a = hiByte b ↔ a.toNat / 256 = b.toNat / 256 := by
    rw [← hiByte_toNat, ← hiByte_toNat, BitVec.toNat_inj]
  unfold pageDiffers
  by_cases he : hiByte a = hiByte b
  · simp [he, h.1 he]
  · simp [he, mt h.2 he]

/-- A signed byte is its own offset. -/
theorem ofInt_toInt (b : Byte) : BitVec.ofInt 8 b.toInt = b := by simp

/-- An offset in range survives its byte (30_encoding.md R122). -/
theorem toInt_ofInt_of_fits {off : Int} (h : offsetFits off = true) : (BitVec.ofInt 8 off).toInt = off := by
  simp only [offsetFits, Bool.and_eq_true, decide_eq_true_eq] at h
  rw [BitVec.toInt_ofInt]
  exact Int.bmod_eq_of_le (by omega) (by omega)

theorem offsetFits_toInt (b : Byte) : offsetFits b.toInt = true := by
  have h1 := BitVec.toInt_lt (x := b)
  have h2 := BitVec.le_toInt (x := b)
  simp only [offsetFits, Bool.and_eq_true, decide_eq_true_eq]
  omega

end Sys2Proof
end

