-- ==== Sys2Proof/Laws/Memory.lean ====
section
/-! SUPPORT. The laws of a memory: read after write, and that writing keeps the canonical form and the size. -/

namespace Sys2Proof

variable {w : Nat}

@[simp] theorem Memory.read_nil (a : Nat) : Memory.read ([] : Memory w) a = Memory.unlisted w := rfl

@[simp] theorem Memory.wf_nil : Memory.wf ([] : Memory w) = true := rfl

@[simp] theorem Memory.fits_nil (n : Nat) : Memory.fits n ([] : Memory w) = true := rfl

theorem Memory.wfFrom_mono {m : Memory w} {lo lo' : Nat} (hle : lo' ≤ lo) (h : m.wfFrom lo = true) :
    m.wfFrom lo' = true := by
  cases m with
  | nil => rfl
  | cons c rest =>
    obtain ⟨k, v⟩ := c
    simp only [Memory.wfFrom, Bool.and_eq_true, decide_eq_true_eq] at h ⊢
    exact ⟨⟨le_trans hle h.1.1, h.1.2⟩, h.2⟩

/-- A canonical list reads as unlisted below its first cell. -/
theorem Memory.read_below {m : Memory w} {lo a : Nat} (h : m.wfFrom lo = true) (ha : a < lo) :
    m.read a = Memory.unlisted w := by
  induction m generalizing lo with
  | nil => rfl
  | cons c rest ih =>
    obtain ⟨k, v⟩ := c
    simp only [Memory.wfFrom, Bool.and_eq_true, decide_eq_true_eq] at h
    rw [Memory.read, if_neg (by omega)]
    exact ih h.2 (by omega)

theorem Memory.read_consCell (a b : Nat) (v : BitVec w) {rest : Memory w} (h : rest.wfFrom (a + 1) = true) :
    (Memory.consCell a v rest).read b = if b = a then v else rest.read b := by
  unfold Memory.consCell
  split
  · next hv =>
    split
    · next hb => subst hb hv; exact Memory.read_below h (Nat.lt_succ_self _)
    · rfl
  · rfl

theorem Memory.wfFrom_consCell {a lo : Nat} (v : BitVec w) {rest : Memory w} (hlo : lo ≤ a)
    (h : rest.wfFrom (a + 1) = true) : (Memory.consCell a v rest).wfFrom lo = true := by
  unfold Memory.consCell
  split
  · exact Memory.wfFrom_mono (by omega) h
  · next hv => simp [Memory.wfFrom, hlo, hv, h]

theorem Memory.wfFrom_write {m : Memory w} {lo a : Nat} (v : BitVec w) (h : m.wfFrom lo = true) (ha : lo ≤ a) :
    (m.write a v).wfFrom lo = true := by
  induction m generalizing lo with
  | nil => exact Memory.wfFrom_consCell v ha rfl
  | cons c rest ih =>
    obtain ⟨k, x⟩ := c
    simp only [Memory.wfFrom, Bool.and_eq_true, decide_eq_true_eq] at h
    obtain ⟨⟨h1, h2⟩, h3⟩ := h
    rw [Memory.write]
    split
    · exact Memory.wfFrom_consCell v ha (by simp [Memory.wfFrom, h2, h3]; omega)
    · split
      · next hk => subst hk; exact Memory.wfFrom_consCell v ha h3
      · simp only [Memory.wfFrom, Bool.and_eq_true, decide_eq_true_eq]
        exact ⟨⟨h1, h2⟩, ih h3 (by omega)⟩

/-- Every write keeps the canonical form. -/
theorem Memory.wf_write {m : Memory w} (a : Nat) (v : BitVec w) (h : m.wf = true) : (m.write a v).wf = true :=
  Memory.wfFrom_write v h (Nat.zero_le a)

theorem Memory.read_write_from {m : Memory w} {lo : Nat} (a b : Nat) (v : BitVec w) (h : m.wfFrom lo = true) :
    (m.write a v).read b = if b = a then v else m.read b := by
  induction m generalizing lo with
  | nil => exact Memory.read_consCell a b v rfl
  | cons c rest ih =>
    obtain ⟨k, x⟩ := c
    simp only [Memory.wfFrom, Bool.and_eq_true, decide_eq_true_eq] at h
    obtain ⟨⟨h1, h2⟩, h3⟩ := h
    rw [Memory.write]
    split
    · exact Memory.read_consCell a b v (by simp [Memory.wfFrom, h2, h3]; omega)
    · split
      · next hk =>
        subst hk
        rw [Memory.read_consCell a b v h3, Memory.read]
        split <;> rfl
      · next hlt hne =>
        rw [Memory.read, ih h3, Memory.read]
        split
        · next hb => rw [if_neg (by omega)]
        · rfl

/-- Reading after a write in a canonical memory. -/
theorem Memory.read_write {m : Memory w} (a b : Nat) (v : BitVec w) (h : m.wf = true) :
    (m.write a v).read b = if b = a then v else m.read b :=
  Memory.read_write_from a b v h

theorem Memory.read_write_same {m : Memory w} (a : Nat) (v : BitVec w) (h : m.wf = true) : (m.write a v).read a = v := by
  rw [Memory.read_write a a v h, if_pos rfl]

theorem Memory.read_consCell_other {a b : Nat} (v : BitVec w) (rest : Memory w) (hne : b ≠ a) :
    (Memory.consCell a v rest).read b = rest.read b := by
  unfold Memory.consCell
  split
  · rfl
  · rw [Memory.read, if_neg hne]

/-- A write leaves every other cell, in any memory. -/
theorem Memory.read_write_other {m : Memory w} {a b : Nat} (v : BitVec w) (hne : b ≠ a) :
    (m.write a v).read b = m.read b := by
  induction m with
  | nil => exact Memory.read_consCell_other v [] hne
  | cons c rest ih =>
    obtain ⟨k, x⟩ := c
    rw [Memory.write]
    split
    · exact Memory.read_consCell_other v _ hne
    · split
      · next hk => rw [Memory.read_consCell_other v rest hne, Memory.read, if_neg (by omega)]
      · rw [Memory.read, Memory.read, ih]

theorem Memory.boundedBy_consCell {n a : Nat} (v : BitVec w) {rest : Memory w} (ha : a < n)
    (h : rest.boundedBy n = true) : (Memory.consCell a v rest).boundedBy n = true := by
  unfold Memory.consCell
  split
  · exact h
  · simpa [Memory.boundedBy, ha] using h

/-- A write inside a memory's size keeps its size. -/
theorem Memory.boundedBy_write {m : Memory w} {n a : Nat} (v : BitVec w) (h : m.boundedBy n = true) (ha : a < n) :
    (m.write a v).boundedBy n = true := by
  induction m with
  | nil => exact Memory.boundedBy_consCell v ha rfl
  | cons c rest ih =>
    obtain ⟨k, x⟩ := c
    have hr : Memory.boundedBy n rest = true := by
      simp only [Memory.boundedBy, List.all_cons, Bool.and_eq_true] at h ⊢; exact h.2
    rw [Memory.write]
    split
    · exact Memory.boundedBy_consCell v ha h
    · split
      · exact Memory.boundedBy_consCell v ha hr
      · have := ih hr
        simp only [Memory.boundedBy, List.all_cons, Bool.and_eq_true] at h this ⊢
        exact ⟨h.1, this⟩

theorem Memory.fits_write {m : Memory w} {n a : Nat} (v : BitVec w) (h : m.fits n = true) (ha : a < n) :
    (m.write a v).fits n = true := by
  simp only [Memory.fits, Bool.and_eq_true] at h ⊢
  exact ⟨Memory.wf_write a v h.1, Memory.boundedBy_write v h.2 ha⟩

theorem Memory.wf_of_fits {m : Memory w} {n : Nat} (h : m.fits n = true) : m.wf = true := by
  simp only [Memory.fits, Bool.and_eq_true] at h
  exact h.1

/-- A cell outside a memory's size reads as unlisted. -/
theorem Memory.read_outside {m : Memory w} {n a : Nat} (h : m.boundedBy n = true) (ha : n ≤ a) :
    m.read a = Memory.unlisted w := by
  induction m with
  | nil => rfl
  | cons c rest ih =>
    obtain ⟨k, x⟩ := c
    simp only [Memory.boundedBy, List.all_cons, Bool.and_eq_true, decide_eq_true_eq] at h
    rw [Memory.read, if_neg (by omega)]
    exact ih h.2

/-- Two canonical memories that read the same everywhere are the same list. -/
theorem Memory.ext_of_read {m m' : Memory w} {lo : Nat} (h : m.wfFrom lo = true) (h' : m'.wfFrom lo = true)
    (heq : ∀ a, m.read a = m'.read a) : m = m' := by
  induction m generalizing lo m' with
  | nil =>
    cases m' with
    | nil => rfl
    | cons c rest =>
      obtain ⟨k, x⟩ := c
      simp only [Memory.wfFrom, Bool.and_eq_true, decide_eq_true_eq] at h'
      have := heq k
      rw [Memory.read_nil, Memory.read, if_pos rfl] at this
      exact absurd this.symm h'.1.2
  | cons c rest ih =>
    obtain ⟨k, x⟩ := c
    have h0 := h
    simp only [Memory.wfFrom, Bool.and_eq_true, decide_eq_true_eq] at h
    cases m' with
    | nil =>
      have := heq k
      rw [Memory.read_nil, Memory.read, if_pos rfl] at this
      exact absurd this h.1.2
    | cons c' rest' =>
      obtain ⟨k', x'⟩ := c'
      have h0' := h'
      simp only [Memory.wfFrom, Bool.and_eq_true, decide_eq_true_eq] at h'
      have hk : k = k' := by
        rcases Nat.lt_trichotomy k k' with hlt | he | hgt
        · have := heq k
          rw [Memory.read, if_pos rfl, Memory.read, if_neg (by omega), Memory.read_below h'.2 (by omega)] at this
          exact absurd this h.1.2
        · exact he
        · have := heq k'
          rw [Memory.read, if_neg (by omega), Memory.read_below h.2 (by omega), Memory.read, if_pos rfl] at this
          exact absurd this.symm h'.1.2
      subst hk
      have hx : x = x' := by have := heq k; simpa [Memory.read] using this
      subst hx
      rw [ih h.2 h'.2 ?_]
      intro a
      by_cases ha : a = k
      · subst ha
        rw [Memory.read_below h.2 (Nat.lt_succ_self _), Memory.read_below h'.2 (Nat.lt_succ_self _)]
      · have := heq a
        rwa [Memory.read, if_neg ha, Memory.read, if_neg ha] at this

end Sys2Proof
end

