-- ==== Sys2Proof/Laws/State.lean ====
section
/-! SUPPORT. One lemma per field per update of State, each true by rfl. -/

namespace Sys2Proof.Machine.State

variable (s : State)

@[simp] theorem setA_a (v : Byte) : (s.setA v).cpu.a = v := rfl
@[simp] theorem setA_x (v : Byte) : (s.setA v).cpu.x = s.cpu.x := rfl
@[simp] theorem setA_y (v : Byte) : (s.setA v).cpu.y = s.cpu.y := rfl
@[simp] theorem setA_s (v : Byte) : (s.setA v).cpu.s = s.cpu.s := rfl
@[simp] theorem setA_p (v : Byte) : (s.setA v).cpu.p = s.cpu.p := rfl
@[simp] theorem setA_pc (v : Byte) : (s.setA v).cpu.pc = s.cpu.pc := rfl
@[simp] theorem setA_cycles (v : Byte) : (s.setA v).cpu.cycles = s.cpu.cycles := rfl
@[simp] theorem setA_pending (v : Byte) : (s.setA v).cpu.pending = s.cpu.pending := rfl
@[simp] theorem setA_fault (v : Byte) : (s.setA v).cpu.fault = s.cpu.fault := rfl
@[simp] theorem setA_cfg (v : Byte) : (s.setA v).cfg = s.cfg := rfl
@[simp] theorem setA_ppu (v : Byte) : (s.setA v).ppu = s.ppu := rfl
@[simp] theorem setA_ram (v : Byte) : (s.setA v).ram = s.ram := rfl
@[simp] theorem setA_prgRam (v : Byte) : (s.setA v).prgRam = s.prgRam := rfl
@[simp] theorem setA_chrRam (v : Byte) : (s.setA v).chrRam = s.chrRam := rfl
@[simp] theorem setA_flatMem (v : Byte) : (s.setA v).flatMem = s.flatMem := rfl
@[simp] theorem setA_tickCount (v : Byte) : (s.setA v).tickCount = s.tickCount := rfl
@[simp] theorem setA_freeCount (v : Byte) : (s.setA v).freeCount = s.freeCount := rfl

@[simp] theorem setX_a (v : Byte) : (s.setX v).cpu.a = s.cpu.a := rfl
@[simp] theorem setX_x (v : Byte) : (s.setX v).cpu.x = v := rfl
@[simp] theorem setX_y (v : Byte) : (s.setX v).cpu.y = s.cpu.y := rfl
@[simp] theorem setX_s (v : Byte) : (s.setX v).cpu.s = s.cpu.s := rfl
@[simp] theorem setX_p (v : Byte) : (s.setX v).cpu.p = s.cpu.p := rfl
@[simp] theorem setX_pc (v : Byte) : (s.setX v).cpu.pc = s.cpu.pc := rfl
@[simp] theorem setX_cycles (v : Byte) : (s.setX v).cpu.cycles = s.cpu.cycles := rfl
@[simp] theorem setX_pending (v : Byte) : (s.setX v).cpu.pending = s.cpu.pending := rfl
@[simp] theorem setX_fault (v : Byte) : (s.setX v).cpu.fault = s.cpu.fault := rfl
@[simp] theorem setX_cfg (v : Byte) : (s.setX v).cfg = s.cfg := rfl
@[simp] theorem setX_ppu (v : Byte) : (s.setX v).ppu = s.ppu := rfl
@[simp] theorem setX_ram (v : Byte) : (s.setX v).ram = s.ram := rfl
@[simp] theorem setX_prgRam (v : Byte) : (s.setX v).prgRam = s.prgRam := rfl
@[simp] theorem setX_chrRam (v : Byte) : (s.setX v).chrRam = s.chrRam := rfl
@[simp] theorem setX_flatMem (v : Byte) : (s.setX v).flatMem = s.flatMem := rfl
@[simp] theorem setX_tickCount (v : Byte) : (s.setX v).tickCount = s.tickCount := rfl
@[simp] theorem setX_freeCount (v : Byte) : (s.setX v).freeCount = s.freeCount := rfl

@[simp] theorem setY_a (v : Byte) : (s.setY v).cpu.a = s.cpu.a := rfl
@[simp] theorem setY_x (v : Byte) : (s.setY v).cpu.x = s.cpu.x := rfl
@[simp] theorem setY_y (v : Byte) : (s.setY v).cpu.y = v := rfl
@[simp] theorem setY_s (v : Byte) : (s.setY v).cpu.s = s.cpu.s := rfl
@[simp] theorem setY_p (v : Byte) : (s.setY v).cpu.p = s.cpu.p := rfl
@[simp] theorem setY_pc (v : Byte) : (s.setY v).cpu.pc = s.cpu.pc := rfl
@[simp] theorem setY_cycles (v : Byte) : (s.setY v).cpu.cycles = s.cpu.cycles := rfl
@[simp] theorem setY_pending (v : Byte) : (s.setY v).cpu.pending = s.cpu.pending := rfl
@[simp] theorem setY_fault (v : Byte) : (s.setY v).cpu.fault = s.cpu.fault := rfl
@[simp] theorem setY_cfg (v : Byte) : (s.setY v).cfg = s.cfg := rfl
@[simp] theorem setY_ppu (v : Byte) : (s.setY v).ppu = s.ppu := rfl
@[simp] theorem setY_ram (v : Byte) : (s.setY v).ram = s.ram := rfl
@[simp] theorem setY_prgRam (v : Byte) : (s.setY v).prgRam = s.prgRam := rfl
@[simp] theorem setY_chrRam (v : Byte) : (s.setY v).chrRam = s.chrRam := rfl
@[simp] theorem setY_flatMem (v : Byte) : (s.setY v).flatMem = s.flatMem := rfl
@[simp] theorem setY_tickCount (v : Byte) : (s.setY v).tickCount = s.tickCount := rfl
@[simp] theorem setY_freeCount (v : Byte) : (s.setY v).freeCount = s.freeCount := rfl

@[simp] theorem setS_a (v : Byte) : (s.setS v).cpu.a = s.cpu.a := rfl
@[simp] theorem setS_x (v : Byte) : (s.setS v).cpu.x = s.cpu.x := rfl
@[simp] theorem setS_y (v : Byte) : (s.setS v).cpu.y = s.cpu.y := rfl
@[simp] theorem setS_s (v : Byte) : (s.setS v).cpu.s = v := rfl
@[simp] theorem setS_p (v : Byte) : (s.setS v).cpu.p = s.cpu.p := rfl
@[simp] theorem setS_pc (v : Byte) : (s.setS v).cpu.pc = s.cpu.pc := rfl
@[simp] theorem setS_cycles (v : Byte) : (s.setS v).cpu.cycles = s.cpu.cycles := rfl
@[simp] theorem setS_pending (v : Byte) : (s.setS v).cpu.pending = s.cpu.pending := rfl
@[simp] theorem setS_fault (v : Byte) : (s.setS v).cpu.fault = s.cpu.fault := rfl
@[simp] theorem setS_cfg (v : Byte) : (s.setS v).cfg = s.cfg := rfl
@[simp] theorem setS_ppu (v : Byte) : (s.setS v).ppu = s.ppu := rfl
@[simp] theorem setS_ram (v : Byte) : (s.setS v).ram = s.ram := rfl
@[simp] theorem setS_prgRam (v : Byte) : (s.setS v).prgRam = s.prgRam := rfl
@[simp] theorem setS_chrRam (v : Byte) : (s.setS v).chrRam = s.chrRam := rfl
@[simp] theorem setS_flatMem (v : Byte) : (s.setS v).flatMem = s.flatMem := rfl
@[simp] theorem setS_tickCount (v : Byte) : (s.setS v).tickCount = s.tickCount := rfl
@[simp] theorem setS_freeCount (v : Byte) : (s.setS v).freeCount = s.freeCount := rfl

@[simp] theorem setP_a (v : Byte) : (s.setP v).cpu.a = s.cpu.a := rfl
@[simp] theorem setP_x (v : Byte) : (s.setP v).cpu.x = s.cpu.x := rfl
@[simp] theorem setP_y (v : Byte) : (s.setP v).cpu.y = s.cpu.y := rfl
@[simp] theorem setP_s (v : Byte) : (s.setP v).cpu.s = s.cpu.s := rfl
@[simp] theorem setP_p (v : Byte) : (s.setP v).cpu.p = v := rfl
@[simp] theorem setP_pc (v : Byte) : (s.setP v).cpu.pc = s.cpu.pc := rfl
@[simp] theorem setP_cycles (v : Byte) : (s.setP v).cpu.cycles = s.cpu.cycles := rfl
@[simp] theorem setP_pending (v : Byte) : (s.setP v).cpu.pending = s.cpu.pending := rfl
@[simp] theorem setP_fault (v : Byte) : (s.setP v).cpu.fault = s.cpu.fault := rfl
@[simp] theorem setP_cfg (v : Byte) : (s.setP v).cfg = s.cfg := rfl
@[simp] theorem setP_ppu (v : Byte) : (s.setP v).ppu = s.ppu := rfl
@[simp] theorem setP_ram (v : Byte) : (s.setP v).ram = s.ram := rfl
@[simp] theorem setP_prgRam (v : Byte) : (s.setP v).prgRam = s.prgRam := rfl
@[simp] theorem setP_chrRam (v : Byte) : (s.setP v).chrRam = s.chrRam := rfl
@[simp] theorem setP_flatMem (v : Byte) : (s.setP v).flatMem = s.flatMem := rfl
@[simp] theorem setP_tickCount (v : Byte) : (s.setP v).tickCount = s.tickCount := rfl
@[simp] theorem setP_freeCount (v : Byte) : (s.setP v).freeCount = s.freeCount := rfl

@[simp] theorem setPc_a (v : Addr) : (s.setPc v).cpu.a = s.cpu.a := rfl
@[simp] theorem setPc_x (v : Addr) : (s.setPc v).cpu.x = s.cpu.x := rfl
@[simp] theorem setPc_y (v : Addr) : (s.setPc v).cpu.y = s.cpu.y := rfl
@[simp] theorem setPc_s (v : Addr) : (s.setPc v).cpu.s = s.cpu.s := rfl
@[simp] theorem setPc_p (v : Addr) : (s.setPc v).cpu.p = s.cpu.p := rfl
@[simp] theorem setPc_pc (v : Addr) : (s.setPc v).cpu.pc = v := rfl
@[simp] theorem setPc_cycles (v : Addr) : (s.setPc v).cpu.cycles = s.cpu.cycles := rfl
@[simp] theorem setPc_pending (v : Addr) : (s.setPc v).cpu.pending = s.cpu.pending := rfl
@[simp] theorem setPc_fault (v : Addr) : (s.setPc v).cpu.fault = s.cpu.fault := rfl
@[simp] theorem setPc_cfg (v : Addr) : (s.setPc v).cfg = s.cfg := rfl
@[simp] theorem setPc_ppu (v : Addr) : (s.setPc v).ppu = s.ppu := rfl
@[simp] theorem setPc_ram (v : Addr) : (s.setPc v).ram = s.ram := rfl
@[simp] theorem setPc_prgRam (v : Addr) : (s.setPc v).prgRam = s.prgRam := rfl
@[simp] theorem setPc_chrRam (v : Addr) : (s.setPc v).chrRam = s.chrRam := rfl
@[simp] theorem setPc_flatMem (v : Addr) : (s.setPc v).flatMem = s.flatMem := rfl
@[simp] theorem setPc_tickCount (v : Addr) : (s.setPc v).tickCount = s.tickCount := rfl
@[simp] theorem setPc_freeCount (v : Addr) : (s.setPc v).freeCount = s.freeCount := rfl

@[simp] theorem setCycles_a (v : Nat) : (s.setCycles v).cpu.a = s.cpu.a := rfl
@[simp] theorem setCycles_x (v : Nat) : (s.setCycles v).cpu.x = s.cpu.x := rfl
@[simp] theorem setCycles_y (v : Nat) : (s.setCycles v).cpu.y = s.cpu.y := rfl
@[simp] theorem setCycles_s (v : Nat) : (s.setCycles v).cpu.s = s.cpu.s := rfl
@[simp] theorem setCycles_p (v : Nat) : (s.setCycles v).cpu.p = s.cpu.p := rfl
@[simp] theorem setCycles_pc (v : Nat) : (s.setCycles v).cpu.pc = s.cpu.pc := rfl
@[simp] theorem setCycles_cycles (v : Nat) : (s.setCycles v).cpu.cycles = v := rfl
@[simp] theorem setCycles_pending (v : Nat) : (s.setCycles v).cpu.pending = s.cpu.pending := rfl
@[simp] theorem setCycles_fault (v : Nat) : (s.setCycles v).cpu.fault = s.cpu.fault := rfl
@[simp] theorem setCycles_cfg (v : Nat) : (s.setCycles v).cfg = s.cfg := rfl
@[simp] theorem setCycles_ppu (v : Nat) : (s.setCycles v).ppu = s.ppu := rfl
@[simp] theorem setCycles_ram (v : Nat) : (s.setCycles v).ram = s.ram := rfl
@[simp] theorem setCycles_prgRam (v : Nat) : (s.setCycles v).prgRam = s.prgRam := rfl
@[simp] theorem setCycles_chrRam (v : Nat) : (s.setCycles v).chrRam = s.chrRam := rfl
@[simp] theorem setCycles_flatMem (v : Nat) : (s.setCycles v).flatMem = s.flatMem := rfl
@[simp] theorem setCycles_tickCount (v : Nat) : (s.setCycles v).tickCount = s.tickCount := rfl
@[simp] theorem setCycles_freeCount (v : Nat) : (s.setCycles v).freeCount = s.freeCount := rfl

@[simp] theorem setPending_a (v : Option Interrupt) : (s.setPending v).cpu.a = s.cpu.a := rfl
@[simp] theorem setPending_x (v : Option Interrupt) : (s.setPending v).cpu.x = s.cpu.x := rfl
@[simp] theorem setPending_y (v : Option Interrupt) : (s.setPending v).cpu.y = s.cpu.y := rfl
@[simp] theorem setPending_s (v : Option Interrupt) : (s.setPending v).cpu.s = s.cpu.s := rfl
@[simp] theorem setPending_p (v : Option Interrupt) : (s.setPending v).cpu.p = s.cpu.p := rfl
@[simp] theorem setPending_pc (v : Option Interrupt) : (s.setPending v).cpu.pc = s.cpu.pc := rfl
@[simp] theorem setPending_cycles (v : Option Interrupt) : (s.setPending v).cpu.cycles = s.cpu.cycles := rfl
@[simp] theorem setPending_pending (v : Option Interrupt) : (s.setPending v).cpu.pending = v := rfl
@[simp] theorem setPending_fault (v : Option Interrupt) : (s.setPending v).cpu.fault = s.cpu.fault := rfl
@[simp] theorem setPending_cfg (v : Option Interrupt) : (s.setPending v).cfg = s.cfg := rfl
@[simp] theorem setPending_ppu (v : Option Interrupt) : (s.setPending v).ppu = s.ppu := rfl
@[simp] theorem setPending_ram (v : Option Interrupt) : (s.setPending v).ram = s.ram := rfl
@[simp] theorem setPending_prgRam (v : Option Interrupt) : (s.setPending v).prgRam = s.prgRam := rfl
@[simp] theorem setPending_chrRam (v : Option Interrupt) : (s.setPending v).chrRam = s.chrRam := rfl
@[simp] theorem setPending_flatMem (v : Option Interrupt) : (s.setPending v).flatMem = s.flatMem := rfl
@[simp] theorem setPending_tickCount (v : Option Interrupt) : (s.setPending v).tickCount = s.tickCount := rfl
@[simp] theorem setPending_freeCount (v : Option Interrupt) : (s.setPending v).freeCount = s.freeCount := rfl

@[simp] theorem setFault_a (v : Option Fault) : (s.setFault v).cpu.a = s.cpu.a := rfl
@[simp] theorem setFault_x (v : Option Fault) : (s.setFault v).cpu.x = s.cpu.x := rfl
@[simp] theorem setFault_y (v : Option Fault) : (s.setFault v).cpu.y = s.cpu.y := rfl
@[simp] theorem setFault_s (v : Option Fault) : (s.setFault v).cpu.s = s.cpu.s := rfl
@[simp] theorem setFault_p (v : Option Fault) : (s.setFault v).cpu.p = s.cpu.p := rfl
@[simp] theorem setFault_pc (v : Option Fault) : (s.setFault v).cpu.pc = s.cpu.pc := rfl
@[simp] theorem setFault_cycles (v : Option Fault) : (s.setFault v).cpu.cycles = s.cpu.cycles := rfl
@[simp] theorem setFault_pending (v : Option Fault) : (s.setFault v).cpu.pending = s.cpu.pending := rfl
@[simp] theorem setFault_fault (v : Option Fault) : (s.setFault v).cpu.fault = v := rfl
@[simp] theorem setFault_cfg (v : Option Fault) : (s.setFault v).cfg = s.cfg := rfl
@[simp] theorem setFault_ppu (v : Option Fault) : (s.setFault v).ppu = s.ppu := rfl
@[simp] theorem setFault_ram (v : Option Fault) : (s.setFault v).ram = s.ram := rfl
@[simp] theorem setFault_prgRam (v : Option Fault) : (s.setFault v).prgRam = s.prgRam := rfl
@[simp] theorem setFault_chrRam (v : Option Fault) : (s.setFault v).chrRam = s.chrRam := rfl
@[simp] theorem setFault_flatMem (v : Option Fault) : (s.setFault v).flatMem = s.flatMem := rfl
@[simp] theorem setFault_tickCount (v : Option Fault) : (s.setFault v).tickCount = s.tickCount := rfl
@[simp] theorem setFault_freeCount (v : Option Fault) : (s.setFault v).freeCount = s.freeCount := rfl

@[simp] theorem setCpu_cfg (v : Cpu) : (s.setCpu v).cfg = s.cfg := rfl
@[simp] theorem setCpu_cpu (v : Cpu) : (s.setCpu v).cpu = v := rfl
@[simp] theorem setCpu_ppu (v : Cpu) : (s.setCpu v).ppu = s.ppu := rfl
@[simp] theorem setCpu_ram (v : Cpu) : (s.setCpu v).ram = s.ram := rfl
@[simp] theorem setCpu_prgRam (v : Cpu) : (s.setCpu v).prgRam = s.prgRam := rfl
@[simp] theorem setCpu_chrRam (v : Cpu) : (s.setCpu v).chrRam = s.chrRam := rfl
@[simp] theorem setCpu_flatMem (v : Cpu) : (s.setCpu v).flatMem = s.flatMem := rfl
@[simp] theorem setCpu_tickCount (v : Cpu) : (s.setCpu v).tickCount = s.tickCount := rfl
@[simp] theorem setCpu_freeCount (v : Cpu) : (s.setCpu v).freeCount = s.freeCount := rfl

@[simp] theorem setPpu_cfg (v : Ppu) : (s.setPpu v).cfg = s.cfg := rfl
@[simp] theorem setPpu_cpu (v : Ppu) : (s.setPpu v).cpu = s.cpu := rfl
@[simp] theorem setPpu_ppu (v : Ppu) : (s.setPpu v).ppu = v := rfl
@[simp] theorem setPpu_ram (v : Ppu) : (s.setPpu v).ram = s.ram := rfl
@[simp] theorem setPpu_prgRam (v : Ppu) : (s.setPpu v).prgRam = s.prgRam := rfl
@[simp] theorem setPpu_chrRam (v : Ppu) : (s.setPpu v).chrRam = s.chrRam := rfl
@[simp] theorem setPpu_flatMem (v : Ppu) : (s.setPpu v).flatMem = s.flatMem := rfl
@[simp] theorem setPpu_tickCount (v : Ppu) : (s.setPpu v).tickCount = s.tickCount := rfl
@[simp] theorem setPpu_freeCount (v : Ppu) : (s.setPpu v).freeCount = s.freeCount := rfl

@[simp] theorem setRam_cfg (v : Memory 8) : (s.setRam v).cfg = s.cfg := rfl
@[simp] theorem setRam_cpu (v : Memory 8) : (s.setRam v).cpu = s.cpu := rfl
@[simp] theorem setRam_ppu (v : Memory 8) : (s.setRam v).ppu = s.ppu := rfl
@[simp] theorem setRam_ram (v : Memory 8) : (s.setRam v).ram = v := rfl
@[simp] theorem setRam_prgRam (v : Memory 8) : (s.setRam v).prgRam = s.prgRam := rfl
@[simp] theorem setRam_chrRam (v : Memory 8) : (s.setRam v).chrRam = s.chrRam := rfl
@[simp] theorem setRam_flatMem (v : Memory 8) : (s.setRam v).flatMem = s.flatMem := rfl
@[simp] theorem setRam_tickCount (v : Memory 8) : (s.setRam v).tickCount = s.tickCount := rfl
@[simp] theorem setRam_freeCount (v : Memory 8) : (s.setRam v).freeCount = s.freeCount := rfl

@[simp] theorem setPrgRam_cfg (v : Memory 8) : (s.setPrgRam v).cfg = s.cfg := rfl
@[simp] theorem setPrgRam_cpu (v : Memory 8) : (s.setPrgRam v).cpu = s.cpu := rfl
@[simp] theorem setPrgRam_ppu (v : Memory 8) : (s.setPrgRam v).ppu = s.ppu := rfl
@[simp] theorem setPrgRam_ram (v : Memory 8) : (s.setPrgRam v).ram = s.ram := rfl
@[simp] theorem setPrgRam_prgRam (v : Memory 8) : (s.setPrgRam v).prgRam = v := rfl
@[simp] theorem setPrgRam_chrRam (v : Memory 8) : (s.setPrgRam v).chrRam = s.chrRam := rfl
@[simp] theorem setPrgRam_flatMem (v : Memory 8) : (s.setPrgRam v).flatMem = s.flatMem := rfl
@[simp] theorem setPrgRam_tickCount (v : Memory 8) : (s.setPrgRam v).tickCount = s.tickCount := rfl
@[simp] theorem setPrgRam_freeCount (v : Memory 8) : (s.setPrgRam v).freeCount = s.freeCount := rfl

@[simp] theorem setChrRam_cfg (v : Memory 8) : (s.setChrRam v).cfg = s.cfg := rfl
@[simp] theorem setChrRam_cpu (v : Memory 8) : (s.setChrRam v).cpu = s.cpu := rfl
@[simp] theorem setChrRam_ppu (v : Memory 8) : (s.setChrRam v).ppu = s.ppu := rfl
@[simp] theorem setChrRam_ram (v : Memory 8) : (s.setChrRam v).ram = s.ram := rfl
@[simp] theorem setChrRam_prgRam (v : Memory 8) : (s.setChrRam v).prgRam = s.prgRam := rfl
@[simp] theorem setChrRam_chrRam (v : Memory 8) : (s.setChrRam v).chrRam = v := rfl
@[simp] theorem setChrRam_flatMem (v : Memory 8) : (s.setChrRam v).flatMem = s.flatMem := rfl
@[simp] theorem setChrRam_tickCount (v : Memory 8) : (s.setChrRam v).tickCount = s.tickCount := rfl
@[simp] theorem setChrRam_freeCount (v : Memory 8) : (s.setChrRam v).freeCount = s.freeCount := rfl

@[simp] theorem setFlatMem_cfg (v : Memory 8) : (s.setFlatMem v).cfg = s.cfg := rfl
@[simp] theorem setFlatMem_cpu (v : Memory 8) : (s.setFlatMem v).cpu = s.cpu := rfl
@[simp] theorem setFlatMem_ppu (v : Memory 8) : (s.setFlatMem v).ppu = s.ppu := rfl
@[simp] theorem setFlatMem_ram (v : Memory 8) : (s.setFlatMem v).ram = s.ram := rfl
@[simp] theorem setFlatMem_prgRam (v : Memory 8) : (s.setFlatMem v).prgRam = s.prgRam := rfl
@[simp] theorem setFlatMem_chrRam (v : Memory 8) : (s.setFlatMem v).chrRam = s.chrRam := rfl
@[simp] theorem setFlatMem_flatMem (v : Memory 8) : (s.setFlatMem v).flatMem = v := rfl
@[simp] theorem setFlatMem_tickCount (v : Memory 8) : (s.setFlatMem v).tickCount = s.tickCount := rfl
@[simp] theorem setFlatMem_freeCount (v : Memory 8) : (s.setFlatMem v).freeCount = s.freeCount := rfl

@[simp] theorem setTickCount_cfg (v : Nat) : (s.setTickCount v).cfg = s.cfg := rfl
@[simp] theorem setTickCount_cpu (v : Nat) : (s.setTickCount v).cpu = s.cpu := rfl
@[simp] theorem setTickCount_ppu (v : Nat) : (s.setTickCount v).ppu = s.ppu := rfl
@[simp] theorem setTickCount_ram (v : Nat) : (s.setTickCount v).ram = s.ram := rfl
@[simp] theorem setTickCount_prgRam (v : Nat) : (s.setTickCount v).prgRam = s.prgRam := rfl
@[simp] theorem setTickCount_chrRam (v : Nat) : (s.setTickCount v).chrRam = s.chrRam := rfl
@[simp] theorem setTickCount_flatMem (v : Nat) : (s.setTickCount v).flatMem = s.flatMem := rfl
@[simp] theorem setTickCount_tickCount (v : Nat) : (s.setTickCount v).tickCount = v := rfl
@[simp] theorem setTickCount_freeCount (v : Nat) : (s.setTickCount v).freeCount = s.freeCount := rfl

@[simp] theorem setFreeCount_cfg (v : Nat) : (s.setFreeCount v).cfg = s.cfg := rfl
@[simp] theorem setFreeCount_cpu (v : Nat) : (s.setFreeCount v).cpu = s.cpu := rfl
@[simp] theorem setFreeCount_ppu (v : Nat) : (s.setFreeCount v).ppu = s.ppu := rfl
@[simp] theorem setFreeCount_ram (v : Nat) : (s.setFreeCount v).ram = s.ram := rfl
@[simp] theorem setFreeCount_prgRam (v : Nat) : (s.setFreeCount v).prgRam = s.prgRam := rfl
@[simp] theorem setFreeCount_chrRam (v : Nat) : (s.setFreeCount v).chrRam = s.chrRam := rfl
@[simp] theorem setFreeCount_flatMem (v : Nat) : (s.setFreeCount v).flatMem = s.flatMem := rfl
@[simp] theorem setFreeCount_tickCount (v : Nat) : (s.setFreeCount v).tickCount = s.tickCount := rfl
@[simp] theorem setFreeCount_freeCount (v : Nat) : (s.setFreeCount v).freeCount = v := rfl

/-- Setting the PPU twice keeps the last. -/
@[simp] theorem setPpu_setPpu (u v : Ppu) : (s.setPpu u).setPpu v = s.setPpu v := rfl

@[simp] theorem setPpu_self : s.setPpu s.ppu = s := rfl

@[simp] theorem setRam_self : s.setRam s.ram = s := rfl

end Sys2Proof.Machine.State
end

