-- ==== Sys2Proof/Laws/Bus.lean ====
section
/-! SUPPORT. What one bus access can do, said once: a read changes only four PPU fields, a write leaves every CPU
register; both keep the memories in form. -/

namespace Sys2Proof.Machine

/-! ### Reads -/

theorem OnlyReadEffects.rfl' (s : State) : OnlyReadEffects s s := ⟨rfl, .inl rfl, .inl rfl⟩

theorem OnlyReadEffects.trans {s t u : State} (h : OnlyReadEffects s t) (h' : OnlyReadEffects t u) :
    OnlyReadEffects s u := by
  obtain ⟨h1, h2, h3⟩ := h
  obtain ⟨h1', h2', h3'⟩ := h'
  refine ⟨?_, ?_, ?_⟩
  · rw [h1'] ; conv_lhs => rw [h1]
    rfl
  · rcases h2' with h | h <;> rcases h2 with g | g <;> rw [h, g]
    · exact .inl rfl
    · exact .inr rfl
    · exact .inr rfl
    · right; rw [BitVec.and_assoc]; rfl
  · rcases h3' with h | h
    · rw [h]; exact h3
    · exact .inr h

theorem ppuRegRead_effects (r : BitVec 3) (s : State) : OnlyReadEffects s (ppuRegRead r s).2 := by
  unfold ppuRegRead
  split
  · exact ⟨rfl, .inr rfl, .inr rfl⟩
  · exact .rfl' s
  · exact ⟨rfl, .inl rfl, .inl rfl⟩
  · exact .rfl' s

/-- Everything a bus read can do to the state (20_memory.md R75). -/
theorem memRead_effects (a : Addr) (s : State) : OnlyReadEffects s (memRead a s).2 := by
  unfold memRead
  split <;> first | exact ppuRegRead_effects _ s | exact .rfl' s

/-- A read anywhere but at a PPU register changes nothing. -/
theorem memRead_state {a : Addr} {s : State} (h : ∀ r, route s.cfg a ≠ .ppuPort r) : (memRead a s).2 = s := by
  unfold memRead
  split <;> first | rfl | exact absurd ‹_› (h _)

theorem OnlyReadEffects.cpu {s t : State} (h : OnlyReadEffects s t) : t.cpu = s.cpu := by rw [h.1]; rfl
theorem OnlyReadEffects.cfg {s t : State} (h : OnlyReadEffects s t) : t.cfg = s.cfg := by rw [h.1]; rfl
theorem OnlyReadEffects.ram {s t : State} (h : OnlyReadEffects s t) : t.ram = s.ram := by rw [h.1]; rfl
theorem OnlyReadEffects.prgRam {s t : State} (h : OnlyReadEffects s t) : t.prgRam = s.prgRam := by rw [h.1]; rfl
theorem OnlyReadEffects.chrRam {s t : State} (h : OnlyReadEffects s t) : t.chrRam = s.chrRam := by rw [h.1]; rfl
theorem OnlyReadEffects.flatMem {s t : State} (h : OnlyReadEffects s t) : t.flatMem = s.flatMem := by rw [h.1]; rfl

@[simp] theorem memRead_cpu (a : Addr) (s : State) : (memRead a s).2.cpu = s.cpu := (memRead_effects a s).cpu
@[simp] theorem memRead_cfg (a : Addr) (s : State) : (memRead a s).2.cfg = s.cfg := (memRead_effects a s).cfg
@[simp] theorem memRead_ram (a : Addr) (s : State) : (memRead a s).2.ram = s.ram := (memRead_effects a s).ram
@[simp] theorem memRead_prgRam (a : Addr) (s : State) : (memRead a s).2.prgRam = s.prgRam :=
  (memRead_effects a s).prgRam
@[simp] theorem memRead_chrRam (a : Addr) (s : State) : (memRead a s).2.chrRam = s.chrRam :=
  (memRead_effects a s).chrRam
@[simp] theorem memRead_flatMem (a : Addr) (s : State) : (memRead a s).2.flatMem = s.flatMem :=
  (memRead_effects a s).flatMem

theorem memRead16_effects (a : Addr) (s : State) : OnlyReadEffects s (memRead16 a s).2 :=
  (memRead_effects a s).trans (memRead_effects _ _)

theorem zpRead16_effects (p : Byte) (s : State) : OnlyReadEffects s (zpRead16 p s).2 :=
  (memRead_effects _ s).trans (memRead_effects _ _)

theorem resolveIndirect_effects (p : Addr) (s : State) : OnlyReadEffects s (resolveIndirect p s).2 :=
  (memRead_effects _ s).trans (memRead_effects _ _)

/-- Finding an operand only reads. -/
theorem resolve_effects (o : MemOperand) (s : State) : OnlyReadEffects s (resolve o s).st := by
  cases o <;> first | exact .rfl' s | exact zpRead16_effects _ s

theorem readAt_effects (o : MemOperand) (s : State) : OnlyReadEffects s (readAt o s).st :=
  (resolve_effects o s).trans (memRead_effects _ _)

theorem readOperand_effects {i : Instr} {s : State} {r : OperandRead} (h : readOperand i s = some r) :
    OnlyReadEffects s r.st := by
  unfold readOperand at h
  split at h
  · cases h; exact .rfl' s
  · obtain ⟨o, -, rfl⟩ := Option.map_eq_some_iff.1 h
    exact readAt_effects o s

/-- What a plain cell reads as does not depend on the read buffer, the toggle, VBLANK or `v`. -/
theorem OnlyReadEffects.peek {s t : State} (h : OnlyReadEffects s t) {a : Addr}
    (ha : plainCell s.cfg a = true) : Machine.peek a t = Machine.peek a s := by
  unfold plainCell at ha
  unfold Machine.peek memRead
  rw [h.cfg]
  split at ha <;> simp_all [h.flatMem, h.ram, h.prgRam]

/-! ### Writes -/

theorem OnlyBusEffects.rfl' (s : State) : OnlyBusEffects s s :=
  ⟨rfl, rfl, ⟨rfl, rfl, rfl, rfl, rfl, rfl, rfl, rfl, rfl, rfl, rfl, rfl, rfl⟩, rfl, rfl⟩

theorem SameDotState.trans {u v w : Ppu} (h : SameDotState u v) (h' : SameDotState v w) : SameDotState u w := by
  unfold SameDotState at *
  simp_all

theorem OnlyBusEffects.trans {s t u : State} (h : OnlyBusEffects s t) (h' : OnlyBusEffects t u) :
    OnlyBusEffects s u :=
  ⟨h'.1.trans h.1, by rw [h'.2.1, h.2.1], h.2.2.1.trans h'.2.2.1, h'.2.2.2.1.trans h.2.2.2.1,
    h'.2.2.2.2.trans h.2.2.2.2⟩

theorem OnlyReadEffects.bus {s t : State} (h : OnlyReadEffects s t) : OnlyBusEffects s t := by
  obtain ⟨h1, -, -⟩ := h
  rw [h1]
  exact .rfl' s

theorem ppuWrite_effects (a : Addr) (b : Byte) (s : State) : OnlyBusEffects s (ppuWrite a b s) := by
  unfold ppuWrite
  dsimp only
  split
  · split <;> exact .rfl' s
  · split <;> exact .rfl' s

theorem ppuRegWrite_effects (r : BitVec 3) (b : Byte) (s : State) : OnlyBusEffects s (ppuRegWrite r b s) := by
  unfold ppuRegWrite
  split
  · exact .rfl' s
  · exact .rfl' s
  · exact .rfl' s
  · exact .rfl' s
  · unfold writeScroll; split <;> exact .rfl' s
  · unfold writeAddr; split <;> exact .rfl' s
  · exact (ppuWrite_effects _ b s).trans (.rfl' _)
  · exact .rfl' s

theorem dmaTransfer_effects (a : Addr) (s : State) : OnlyBusEffects s (dmaTransfer a s) :=
  (memRead_effects a s).bus.trans (ppuRegWrite_effects _ _ _)

theorem dmaTransfers_effects (n : Nat) (a : Addr) (s : State) : OnlyBusEffects s (dmaTransfers n a s) := by
  induction n generalizing a s with
  | zero => exact .rfl' s
  | succ n ih => exact (dmaTransfer_effects a s).trans (ih _ _)

theorem OnlyBusEffects.setCycles (n : Nat) (s : State) : OnlyBusEffects s (s.setCycles n) :=
  ⟨rfl, rfl, ⟨rfl, rfl, rfl, rfl, rfl, rfl, rfl, rfl, rfl, rfl, rfl, rfl, rfl⟩, rfl, rfl⟩

theorem oamDma_effects (b : Byte) (s : State) : OnlyBusEffects s (oamDma b s) :=
  (dmaTransfers_effects 256 (dmaBase b) s).trans (.setCycles _ _)

/-- Everything a bus write leaves alone (20_memory.md R72). -/
theorem memWrite_effects (a : Addr) (b : Byte) (s : State) : OnlyBusEffects s (memWrite a b s) := by
  unfold memWrite
  split
  · exact .rfl' s
  · exact .rfl' s
  · exact ppuRegWrite_effects _ b s
  · exact oamDma_effects b s
  · exact .rfl' s
  · exact .rfl' s
  · exact .rfl' s

section Fields
variable (a : Addr) (b : Byte) (s : State)

theorem memWrite_cpu : (memWrite a b s).cpu = { s.cpu with cycles := (memWrite a b s).cpu.cycles } :=
  (memWrite_effects a b s).2.1
@[simp] theorem memWrite_cfg : (memWrite a b s).cfg = s.cfg := (memWrite_effects a b s).1
@[simp] theorem memWrite_a : (memWrite a b s).cpu.a = s.cpu.a := by rw [memWrite_cpu]
@[simp] theorem memWrite_x : (memWrite a b s).cpu.x = s.cpu.x := by rw [memWrite_cpu]
@[simp] theorem memWrite_y : (memWrite a b s).cpu.y = s.cpu.y := by rw [memWrite_cpu]
@[simp] theorem memWrite_s : (memWrite a b s).cpu.s = s.cpu.s := by rw [memWrite_cpu]
@[simp] theorem memWrite_p : (memWrite a b s).cpu.p = s.cpu.p := by rw [memWrite_cpu]
@[simp] theorem memWrite_pc : (memWrite a b s).cpu.pc = s.cpu.pc := by rw [memWrite_cpu]
@[simp] theorem memWrite_pending : (memWrite a b s).cpu.pending = s.cpu.pending := by rw [memWrite_cpu]
@[simp] theorem memWrite_fault : (memWrite a b s).cpu.fault = s.cpu.fault := by rw [memWrite_cpu]
@[simp] theorem memWrite_tickCount : (memWrite a b s).tickCount = s.tickCount := (memWrite_effects a b s).2.2.2.1
@[simp] theorem memWrite_freeCount : (memWrite a b s).freeCount = s.freeCount := (memWrite_effects a b s).2.2.2.2

end Fields

/-! ### The debt -/

@[simp] theorem ppuWrite_cpu (a : Addr) (b : Byte) (s : State) : (ppuWrite a b s).cpu = s.cpu := by
  unfold ppuWrite
  dsimp only
  split
  · split <;> rfl
  · split <;> rfl

@[simp] theorem ppuRegWrite_cpu (r : BitVec 3) (b : Byte) (s : State) : (ppuRegWrite r b s).cpu = s.cpu := by
  unfold ppuRegWrite
  split <;> first | rfl | exact ppuWrite_cpu _ b s

@[simp] theorem dmaTransfers_cpu (n : Nat) (a : Addr) (s : State) : (dmaTransfers n a s).cpu = s.cpu := by
  induction n generalizing a s with
  | zero => rfl
  | succ n ih =>
    rw [dmaTransfers, ih]
    unfold dmaTransfer
    rw [ppuRegWrite_cpu, memRead_cpu]

/-- A DMA adds 513 to the debt and changes nothing else of the CPU (49_bus_clock_dma.md R395). -/
theorem oamDma_cpu (b : Byte) (s : State) : (oamDma b s).cpu = { s.cpu with cycles := s.cpu.cycles + 513 } := by
  have h := dmaTransfers_cpu 256 (dmaBase b) s
  unfold oamDma
  generalize dmaTransfers 256 (dmaBase b) s = t at h ⊢
  rw [← h]
  rfl

/-- A write never lowers the debt. -/
theorem memWrite_cycles_le (a : Addr) (b : Byte) (s : State) : s.cpu.cycles ≤ (memWrite a b s).cpu.cycles := by
  unfold memWrite
  cases route s.cfg a with
  | ppuPort r => simp only [ppuRegWrite_cpu]; exact le_refl _
  | dmaPort => simp only [oamDma_cpu]; omega
  | flat i => exact le_refl _
  | ram i => exact le_refl _
  | zero => exact le_refl _
  | prgRam i => exact le_refl _
  | prgRom i => exact le_refl _

/-- A write to a plain cell changes that cell's memory and nothing else. -/
theorem memWrite_plain {a : Addr} {s : State} (b : Byte) (h : plainCell s.cfg a = true) :
    memWrite a b s =
      match route s.cfg a with
      | .flat i => s.setFlatMem (s.flatMem.write i b)
      | .ram i => s.setRam (s.ram.write i b)
      | .prgRam i => s.setPrgRam (s.prgRam.write i b)
      | _ => s := by
  unfold plainCell at h
  unfold memWrite
  split at h <;> simp_all

/-! ### The stack page -/

/-- The stack page is RAM, of the block or of the stand-alone CPU (20_memory.md R74). -/
theorem route_stack (c : Config) (sp : Byte) :
    route c (stackAddr sp) = match c.bus with
      | .flat => .flat (0x100 + sp.toNat)
      | .system => .ram (0x100 + sp.toNat) := by
  have hn : (stackAddr sp).toNat = 0x100 + sp.toNat := by
    have h := Nat.two_pow_add_eq_or_of_lt sp.isLt 1
    simp only [stackAddr, word, BitVec.toNat_append]
    exact h.symm
  have := sp.isLt
  unfold route
  cases c.bus with
  | flat => simp [hn]
  | system => simp only [hn]; rw [if_pos (by omega), Nat.mod_eq_of_lt (by omega)]

/-- Page 0 is RAM, of the block or of the stand-alone CPU (20_memory.md R74). -/
theorem route_zeroPage (c : Config) (b : Byte) :
    route c (zext16 b) = match c.bus with
      | .flat => .flat b.toNat
      | .system => .ram b.toNat := by
  have hn : (zext16 b).toNat = b.toNat := by
    have := b.isLt
    simp [zext16]
    omega
  have := b.isLt
  unfold route
  cases c.bus with
  | flat => simp [hn]
  | system => simp only [hn]; rw [if_pos (by omega), Nat.mod_eq_of_lt (by omega)]

theorem plainCell_stack (c : Config) (sp : Byte) : plainCell c (stackAddr sp) = true := by
  unfold plainCell
  rw [route_stack]
  cases c.bus <;> rfl

theorem plainCell_zeroPage (c : Config) (b : Byte) : plainCell c (zext16 b) = true := by
  unfold plainCell
  rw [route_zeroPage]
  cases c.bus <;> rfl

@[simp] theorem memRead_stack_state (sp : Byte) (s : State) : (memRead (stackAddr sp) s).2 = s := by
  apply memRead_state
  intro r
  rw [route_stack]
  cases s.cfg.bus <;> simp

@[simp] theorem memRead_zeroPage_state (b : Byte) (s : State) : (memRead (zext16 b) s).2 = s := by
  apply memRead_state
  intro r
  rw [route_zeroPage]
  cases s.cfg.bus <;> simp

/-- A push writes one byte of the stack page and decrements S, nothing else (42_stack.md R200). -/
theorem push_eq (b : Byte) (s : State) :
    push b s = (match s.cfg.bus with
      | .flat => s.setFlatMem (s.flatMem.write (0x100 + s.cpu.s.toNat) b)
      | .system => s.setRam (s.ram.write (0x100 + s.cpu.s.toNat) b)).setS (s.cpu.s - 1) := by
  unfold push
  dsimp only
  rw [memWrite_s, memWrite_plain b (plainCell_stack _ _), route_stack]
  cases s.cfg.bus <;> rfl

/-- A pull reads one byte of the stack page and increments S, nothing else (42_stack.md R201). -/
theorem pop_eq (s : State) :
    pop s = (match s.cfg.bus with
      | .flat => s.flatMem.read (0x100 + (s.cpu.s + 1).toNat)
      | .system => s.ram.read (0x100 + (s.cpu.s + 1).toNat), s.setS (s.cpu.s + 1)) := by
  unfold pop
  ext1
  · simp only [State.setS_s]
    unfold memRead
    rw [State.setS_cfg, route_stack]
    cases s.cfg.bus <;> rfl
  · simp

end Sys2Proof.Machine
end

