-- ==== Sys2Proof/Laws/Classes.lean ====
section
/-! SUPPORT. One equation for every instruction of an access class (spec/40_fetch_decode_addressing.md R156): which
operand it has and what its next state is. Later proofs cite these instead of unfolding 199 meanings. -/

namespace Sys2Proof.Machine

/-- Finding an operand changes nothing: its pointer bytes stand in page 0. -/
@[simp] theorem resolve_st (o : MemOperand) (s : State) : (resolve o s).st = s := by
  cases o <;> first | rfl | simp [resolve, zpRead16, indexed]

/-- The read of an operand, with the state named. -/
theorem readAt_eq (o : MemOperand) (s : State) :
    readAt o s = ⟨(memRead (resolve o s).ea s).1, (resolve o s).crossed, (memRead (resolve o s).ea s).2⟩ := by
  simp [readAt]

/-- Every row has at least two cycles, so every instruction charges at least one (R126, R140). -/
theorem two_le_row_cycles (i : Instr) : 2 ≤ i.row.cycles := by
  cases i <;> exact Nat.le_of_ble_eq_true rfl

theorem debtBias_amount_le (b : DebtBias) : b.amount ≤ 1 := by cases b <;> decide

/-- The operations of the read class. -/
def readOp : Mnemonic → Option (Byte → State → State)
  | .lda => some loadA
  | .ldx => some loadX
  | .ldy => some loadY
  | .lax => some loadAX
  | .adc => some adc
  | .sbc => some sbc
  | .and => some andA
  | .ora => some oraA
  | .eor => some eorA
  | .cmp => some compareA
  | .cpx => some compareX
  | .cpy => some compareY
  | .bit => some bitTest
  | _ => none

/-- The bytes the write class stores. -/
def writeOp : Mnemonic → Option (State → Byte)
  | .sta => some regA
  | .stx => some regX
  | .sty => some regY
  | .sax => some regAandX
  | _ => none

/-- The result byte and the last part of a read-modify-write. -/
def rmwOp : Mnemonic → Option ((State → Byte → Byte) × (Byte → Byte → State → State))
  | .asl => some (aslByte, leftFlags)
  | .lsr => some (lsrByte, rightFlags)
  | .rol => some (rolByte, leftFlags)
  | .ror => some (rorByte, rightFlags)
  | .inc => some (incByte, resultFlags)
  | .dec => some (decByte, resultFlags)
  | .dcm => some (decByte, compareResult)
  | .isb => some (incByte, subtractResult)
  | _ => none

/-- Every form of every read-class instruction. -/
theorem exec_read (i : Instr) (s : State) (op : Byte → State → State) (h : readOp i.row.mnemonic = some op) :
    ∃ r, readOperand i s = some r ∧ exec i s = .next (concluded i r.crossed (op r.value r.st)) := by
  cases i <;> first
    | (cases h; done)
    | (cases h; exact ⟨_, rfl, rfl⟩)

/-- Every form of every write-class instruction. -/
theorem exec_write (i : Instr) (s : State) (v : State → Byte) (h : writeOp i.row.mnemonic = some v) :
    ∃ o, memOperand i = some o ∧ exec i s = .next (concluded i false (memWrite (resolve o s).ea (v s) s)) := by
  have key (v : State → Byte) (h : writeOp i.row.mnemonic = some v) : ∃ o, memOperand i = some o ∧
      exec i s = .next (concluded i false (memWrite (resolve o s).ea (v (resolve o s).st) (resolve o s).st)) := by
    cases i <;> first
      | (cases h; done)
      | (cases h; exact ⟨_, rfl, rfl⟩)
  simpa only [resolve_st] using key v h

/-- Every memory form of every read-modify-write instruction. -/
theorem exec_rmw (i : Instr) (s : State) (o : MemOperand) (res : State → Byte → Byte) (fin : Byte → Byte → State → State)
    (h : rmwOp i.row.mnemonic = some (res, fin)) (ho : memOperand i = some o) :
    exec i s = .next (concluded i false (fin (readAt o s).value (res (readAt o s).st (readAt o s).value)
      (memWrite (resolve o s).ea (res (readAt o s).st (readAt o s).value) (readAt o s).st))) := by
  cases i <;> first
    | (cases h; done)
    | (cases ho; done)
    | (cases h; cases ho; rfl)

/-- The accumulator form of every shift and rotate. -/
theorem exec_acc (i : Instr) (s : State) (res : State → Byte → Byte) (fin : Byte → Byte → State → State)
    (h : rmwOp i.row.mnemonic = some (res, fin)) (hm : i.row.mode = .accumulator) :
    exec i s = .next (concluded i false (fin s.cpu.a (res s s.cpu.a) (s.setA (res s s.cpu.a)))) := by
  cases i <;> first
    | (cases hm; done)
    | (cases h; rfl)

/-- A read-modify-write instruction has a memory operand or the accumulator. -/
theorem rmw_operand (i : Instr) (h : (rmwOp i.row.mnemonic).isSome = true) :
    (memOperand i).isSome = true ∨ i.row.mode = .accumulator := by
  cases i <;> first
    | (cases h; done)
    | exact .inl rfl
    | exact .inr rfl

end Sys2Proof.Machine
end

