-- ==== Sys2Proof/Laws/Flags.lean ====
section
/-! SUPPORT. The laws of the status register and of the flag computations. -/

namespace Sys2Proof.Machine

theorem flagBit_lt (f : Flag) : flagBit f < 8 := by cases f <;> decide

theorem flagBit_inj {f g : Flag} (h : flagBit f = flagBit g) : f = g := by
  cases f <;> cases g <;> first | rfl | (exact absurd h (by decide))

/-- Writing a flag and reading any flag. -/
theorem flagOf_putFlag (f g : Flag) (b : Bool) (p : Byte) :
    flagOf g (putFlag f b p) = if g = f then b else flagOf g p := by
  cases b <;> cases f <;> cases g <;>
    simp [flagOf, putFlag, flagBit]

@[simp] theorem flagOf_putFlag_same (f : Flag) (b : Bool) (p : Byte) : flagOf f (putFlag f b p) = b := by
  rw [flagOf_putFlag, if_pos rfl]

theorem flagOf_putFlag_other {f g : Flag} (h : g ≠ f) (b : Bool) (p : Byte) :
    flagOf g (putFlag f b p) = flagOf g p := by
  rw [flagOf_putFlag, if_neg h]

/-- A status byte is the sum of its flags. -/
theorem status_ext {p q : Byte} (h : ∀ f, flagOf f p = flagOf f q) : p = q := by
  have hb (n : Nat) (f : Flag) (hn : flagBit f = n) : p.getLsbD n = q.getLsbD n := by
    have := h f
    rwa [flagOf, flagOf, hn] at this
  apply BitVec.eq_of_getLsbD_eq
  intro i hi
  have : i = 0 ∨ i = 1 ∨ i = 2 ∨ i = 3 ∨ i = 4 ∨ i = 5 ∨ i = 6 ∨ i = 7 := by omega
  rcases this with rfl | rfl | rfl | rfl | rfl | rfl | rfl | rfl
  · exact hb 0 .c rfl
  · exact hb 1 .z rfl
  · exact hb 2 .i rfl
  · exact hb 3 .d rfl
  · exact hb 4 .b rfl
  · exact hb 5 .u rfl
  · exact hb 6 .v rfl
  · exact hb 7 .n rfl

/-- SetNZ writes N from bit 7 and Z from zero, nothing else (00_scope.md R15). -/
theorem flagOf_putNZ (g : Flag) (r p : Byte) :
    flagOf g (putNZ r p) = if g = .z then r == 0 else if g = .n then r.msb else flagOf g p := by
  simp only [putNZ, flagOf_putFlag]

/-- The pulled status has B clear and U set, the rest from the byte (R206). -/
theorem flagOf_pulledStatus (g : Flag) (b : Byte) :
    flagOf g (pulledStatus b) = if g = .b then false else if g = .u then true else flagOf g b := by
  cases g <;> simp [flagOf, pulledStatus, flagBit]

theorem flagOf_imageWithB (g : Flag) (p : Byte) : flagOf g (imageWithB p) = if g = .b then true else flagOf g p := by
  cases g <;> simp [flagOf, imageWithB, flagBit]

theorem flagOf_imageNoB (g : Flag) (p : Byte) :
    flagOf g (imageNoB p) = if g = .b then false else if g = .u then true else flagOf g p := flagOf_pulledStatus g p

@[simp] theorem flag_def (f : Flag) (s : State) : s.flag f = flagOf f s.cpu.p := rfl

@[simp] theorem setFlag_p (f : Flag) (b : Bool) (s : State) : (s.setFlag f b).cpu.p = putFlag f b s.cpu.p := rfl

@[simp] theorem setNZ_p (r : Byte) (s : State) : (s.setNZ r).cpu.p = putNZ r s.cpu.p := rfl

theorem setFlag_eq (f : Flag) (b : Bool) (s : State) : s.setFlag f b = s.setP (putFlag f b s.cpu.p) := rfl

theorem setNZ_eq (r : Byte) (s : State) : s.setNZ r = s.setP (putNZ r s.cpu.p) := rfl

end Sys2Proof.Machine
end

