-- ==== Sys2Proof/Laws/Ops.lean ====
section
/-! SUPPORT. The stack, the entry through a vector and the return from it as one equation each, and what a byte of a plain
cell reads as after a write (spec/42_stack.md R200 to R202, spec/60_exceptions.md R415, R418). -/

namespace Sys2Proof.Machine

/-! ### Bytes of plain cells -/

/-- A read does not depend on the CPU. -/
theorem peek_setCpu (a : Addr) (c : Cpu) (s : State) : peek a (s.setCpu c) = peek a s := by
  unfold peek memRead
  rw [State.setCpu_cfg]
  split <;> first | rfl | skip
  unfold ppuRegRead
  split <;> rfl

@[simp] theorem peek_setS (a : Addr) (b : Byte) (s : State) : peek a (s.setS b) = peek a s := peek_setCpu a _ s
@[simp] theorem peek_setP (a : Addr) (b : Byte) (s : State) : peek a (s.setP b) = peek a s := peek_setCpu a _ s
@[simp] theorem peek_setA (a : Addr) (b : Byte) (s : State) : peek a (s.setA b) = peek a s := peek_setCpu a _ s
@[simp] theorem peek_setPc (a c : Addr) (s : State) : peek a (s.setPc c) = peek a s := peek_setCpu a _ s
@[simp] theorem peek_setCycles (a : Addr) (n : Nat) (s : State) : peek a (s.setCycles n) = peek a s := peek_setCpu a _ s

/-- A plain cell reads the same in two states that share the configuration and the memories the CPU sees. -/
theorem peek_plain_congr {s t : State} (h0 : t.cfg = s.cfg) (h1 : t.ram = s.ram) (h2 : t.prgRam = s.prgRam)
    (h3 : t.flatMem = s.flatMem) {a : Addr} (ha : plainCell s.cfg a = true) : peek a t = peek a s := by
  unfold plainCell at ha
  unfold peek memRead
  rw [h0]
  cases hr : route s.cfg a <;> simp only [hr] at ha ⊢ <;> first | contradiction | simp only [h1, h2, h3]

/-- No PPU register and no DMA writes a memory the CPU sees. -/
theorem ppuRegWrite_memories (r : BitVec 3) (b : Byte) (s : State) : let t := ppuRegWrite r b s
    t.ram = s.ram ∧ t.prgRam = s.prgRam ∧ t.flatMem = s.flatMem := by
  have h (a : Addr) : (ppuWrite a b s).ram = s.ram ∧ (ppuWrite a b s).prgRam = s.prgRam ∧
      (ppuWrite a b s).flatMem = s.flatMem := by
    unfold ppuWrite
    dsimp only
    split
    · split <;> exact ⟨rfl, rfl, rfl⟩
    · split <;> exact ⟨rfl, rfl, rfl⟩
  unfold ppuRegWrite
  dsimp only
  split <;> first | exact ⟨rfl, rfl, rfl⟩ | exact h _

theorem dmaTransfers_memories (n : Nat) (a : Addr) (s : State) : let t := dmaTransfers n a s
    t.ram = s.ram ∧ t.prgRam = s.prgRam ∧ t.flatMem = s.flatMem := by
  induction n generalizing a s with
  | zero => exact ⟨rfl, rfl, rfl⟩
  | succ n ih =>
    obtain ⟨a1, a2, a3⟩ := ih (a + 1) (dmaTransfer a s)
    obtain ⟨b1, b2, b3⟩ := ppuRegWrite_memories 4 (memRead a s).1 (memRead a s).2
    rw [memRead_ram] at b1
    rw [memRead_prgRam] at b2
    rw [memRead_flatMem] at b3
    exact ⟨a1.trans b1, a2.trans b2, a3.trans b3⟩

/-- A write leaves the bytes of every plain cell but the one it addresses. -/
theorem peek_memWrite_other {a c : Addr} {s : State} (b : Byte) (hc : plainCell s.cfg c = true)
    (hne : route s.cfg c ≠ route s.cfg a) : peek c (memWrite a b s) = peek c s := by
  have hcfg : (memWrite a b s).cfg = s.cfg := memWrite_cfg a b s
  cases hra : route s.cfg a with
  | ppuPort r =>
    have hw : memWrite a b s = ppuRegWrite r b s := by unfold memWrite; rw [hra]
    obtain ⟨h1, h2, h3⟩ := ppuRegWrite_memories r b s
    rw [hw] at hcfg ⊢
    exact peek_plain_congr hcfg h1 h2 h3 hc
  | dmaPort =>
    have hw : memWrite a b s = oamDma b s := by unfold memWrite; rw [hra]
    obtain ⟨h1, h2, h3⟩ := dmaTransfers_memories 256 (dmaBase b) s
    rw [hw] at hcfg ⊢
    unfold oamDma at hcfg ⊢
    generalize dmaTransfers 256 (dmaBase b) s = u at h1 h2 h3 hcfg ⊢
    exact peek_plain_congr hcfg h1 h2 h3 hc
  | _ =>
    have ha : plainCell s.cfg a = true := by unfold plainCell; rw [hra]
    unfold plainCell at hc
    rw [hra] at hne
    unfold peek memRead
    rw [hcfg, memWrite_plain b ha, hra]
    all_goals
      cases hrc : route s.cfg c <;> simp only [hrc] at hc hne ⊢ <;> first
        | contradiction
        | rfl
        | (refine Memory.read_write_other b ?_; intro h; exact hne (by rw [h]))

/-- A write to a plain cell leaves the PPU. -/
theorem memWrite_plain_ppu {a : Addr} {s : State} (b : Byte) (ha : plainCell s.cfg a = true) :
    (memWrite a b s).ppu = s.ppu ∧ (memWrite a b s).chrRam = s.chrRam := by
  rw [memWrite_plain b ha]
  split <;> exact ⟨rfl, rfl⟩

/-- A read of a plain cell changes nothing. -/
theorem memRead_plain_state {a : Addr} {s : State} (ha : plainCell s.cfg a = true) : (memRead a s).2 = s := by
  apply memRead_state
  intro r h
  rw [plainCell, h] at ha
  cases ha

/-! ### The stack -/

/-- A pull gives the byte at `$0100 + (S + 1)` and increments S. -/
theorem pop_peek (s : State) : pop s = (peek (stackAddr (s.cpu.s + 1)) s, s.setS (s.cpu.s + 1)) := by
  rw [← peek_setS _ (s.cpu.s + 1)]
  unfold pop peek
  ext1
  · rfl
  · simp

theorem pop16_peek (s : State) :
    pop16 s = (word (peek (stackAddr (s.cpu.s + 2)) s) (peek (stackAddr (s.cpu.s + 1)) s), s.setS (s.cpu.s + 2)) := by
  have h : s.cpu.s + 1 + 1 = s.cpu.s + 2 := by bv_omega
  unfold pop16
  simp only [pop_peek, peek_setS, State.setS_s, h]
  rfl

theorem memWrite_stack_setS (sp v b : Byte) (s : State) :
    memWrite (stackAddr sp) b (s.setS v) = (memWrite (stackAddr sp) b s).setS v := by
  unfold memWrite
  rw [State.setS_cfg, route_stack]
  cases s.cfg.bus <;> rfl

theorem push16_eq (w : Addr) (s : State) :
    push16 w s = (memWrite (stackAddr (s.cpu.s - 1)) (loByte w) (memWrite (stackAddr s.cpu.s) (hiByte w) s)).setS
      (s.cpu.s - 2) := by
  have h : s.cpu.s - 1 - 1 = s.cpu.s - 2 := by bv_omega
  unfold push16 push
  dsimp only
  rw [State.setS_s, memWrite_stack_setS, State.setS_s, memWrite_s, h]
  rfl

/-! ### Vectors -/

/-- The vectors are plain cells outside the stack page. -/
theorem vector_cell (c : Config) {v : Addr} (h : 0xFFFA ≤ v.toNat) (sp : Byte) :
    plainCell c v = true ∧ route c v ≠ route c (stackAddr sp) := by
  rw [route_stack]
  unfold plainCell route
  have := sp.isLt
  cases c.bus with
  | flat => simp; omega
  | system =>
    simp only []
    rw [if_neg (by omega), if_neg (by omega), if_neg (by omega), if_neg (by omega), if_neg (by omega)]
    simp

theorem memRead_vector_state (s : State) {v : Addr} (h : 0xFFFA ≤ v.toNat) : (memRead v s).2 = s := by
  apply memRead_state
  intro r
  unfold route
  cases s.cfg.bus with
  | flat => simp
  | system =>
    simp only []
    rw [if_neg (by omega), if_neg (by omega), if_neg (by omega), if_neg (by omega), if_neg (by omega)]
    simp

/-- Everything the entry through a vector does. -/
theorem enterHandler_eq (ret : Addr) (image : Byte) {v : Addr} (h : 0xFFFA ≤ v.toNat) (h' : v.toNat < 0xFFFF)
    (s : State) :
    enterHandler ret image v s =
      (((memWrite (stackAddr (s.cpu.s - 2)) image (memWrite (stackAddr (s.cpu.s - 1)) (loByte ret)
        (memWrite (stackAddr s.cpu.s) (hiByte ret) s))).setS (s.cpu.s - 3)).setP (putFlag .i true s.cpu.p)).setPc
        (word (peek (v + 1) s) (peek v s)) := by
  have h3 : s.cpu.s - 2 - 1 = s.cpu.s - 3 := by bv_omega
  have hp : ∀ (t : State) (v w : Byte), (t.setS v).setS w = t.setS w := fun _ _ _ => rfl
  have h1 : (push image (push16 ret s)).setFlag .i true =
      ((memWrite (stackAddr (s.cpu.s - 2)) image (memWrite (stackAddr (s.cpu.s - 1)) (loByte ret)
        (memWrite (stackAddr s.cpu.s) (hiByte ret) s))).setS (s.cpu.s - 3)).setP (putFlag .i true s.cpu.p) := by
    rw [push16_eq]
    unfold push
    dsimp only
    rw [State.setS_s, memWrite_stack_setS, State.setS_s, h3, setFlag_eq, hp, State.setS_p, memWrite_p, memWrite_p,
      memWrite_p]
  have pk (c : Addr) (hc : 0xFFFA ≤ c.toNat) :
      peek c (memWrite (stackAddr (s.cpu.s - 2)) image (memWrite (stackAddr (s.cpu.s - 1)) (loByte ret)
        (memWrite (stackAddr s.cpu.s) (hiByte ret) s))) = peek c s := by
    iterate 3 rw [peek_memWrite_other _ (vector_cell _ hc 0).1 (vector_cell _ hc _).2]
  unfold enterHandler
  rw [h1]
  have hv1 : 0xFFFA ≤ (v + 1).toNat := by bv_omega
  unfold jumpThrough memRead16
  dsimp only
  rw [memRead_vector_state _ h, memRead_vector_state _ hv1]
  congr 2
  · exact (peek_setP _ _ _).trans ((peek_setS _ _ _).trans (pk _ hv1))
  · exact (peek_setP _ _ _).trans ((peek_setS _ _ _).trans (pk _ h))

/-- Everything the return from an entry does. -/
theorem returnFromInterrupt_eq (s : State) :
    returnFromInterrupt s = ((s.setS (s.cpu.s + 3)).setP (pulledStatus (peek (stackAddr (s.cpu.s + 1)) s))).setPc
      (word (peek (stackAddr (s.cpu.s + 3)) s) (peek (stackAddr (s.cpu.s + 2)) s)) := by
  have h1 : s.cpu.s + 1 + 1 = s.cpu.s + 2 := by bv_omega
  have h2 : s.cpu.s + 1 + 2 = s.cpu.s + 3 := by bv_omega
  unfold returnFromInterrupt
  simp only [pop_peek, pop16_peek, State.setP_s, State.setS_s, h1, h2, peek_setP, peek_setS]
  rfl

end Sys2Proof.Machine
end

