-- ==== Sys2Proof/Laws/Cycles.lean ====
section
/-! SUPPORT. What a write adds to the debt, and the cycles of an instruction by the shape of its row
(spec/40_fetch_decode_addressing.md R157 to R159, spec/49_bus_clock_dma.md R395). -/

namespace Sys2Proof.Machine

/-- What a bus write at `a` adds to the debt: the 513 of a DMA, or nothing. -/
def writeCycles (c : Config) (a : Addr) : Nat := if route c a = .dmaPort then 513 else 0

theorem memWrite_cycles (a : Addr) (b : Byte) (s : State) :
    (memWrite a b s).cpu.cycles = s.cpu.cycles + writeCycles s.cfg a := by
  unfold memWrite writeCycles
  cases h : route s.cfg a with
  | ppuPort r => simp
  | dmaPort => simp [oamDma_cpu]
  | _ => rfl

/-- The DMA port is $4014 of the block's bus. -/
theorem route_dmaPort (c : Config) (a : Addr) : route c a = .dmaPort ↔ c.bus = .system ∧ a = 0x4014 := by
  unfold route
  cases c.bus with
  | flat => simp
  | system =>
    have h : a = 0x4014 ↔ a.toNat = 0x4014 := ⟨fun h => by rw [h]; rfl, fun h => BitVec.eq_of_toNat_eq h⟩
    simp only [true_and, h]
    split
    · simp; omega
    · split
      · simp; omega
      · split
        · simp [*]
        · simp only [*, iff_false]
          split
          · simp
          · split
            · split <;> simp
            · simp

/-- The stack page starts no DMA. -/
theorem writeCycles_stack (c : Config) (sp : Byte) : writeCycles c (word 1 sp) = 0 := by
  have h : ¬ route c (word 1 sp) = .dmaPort := by
    rw [route_dmaPort]
    rintro ⟨-, h⟩
    have h' := congrArg BitVec.toNat h
    rw [word_toNat] at h'
    have := sp.isLt
    simp at h'
    omega
  rw [writeCycles, if_neg h]

/-- The penalty column goes with what `extraCycles` looks at. -/
theorem row_penalty (i : Instr) : match i.row.penalty with
    | .no => branchOf i = none
    | .cross => (memOperand i).isSome = true ∧ branchOf i = none
    | .branch => memOperand i = none ∧ (branchOf i).isSome = true ∧ i.row.cycles = 2 := by
  cases i <;> first
    | exact rfl
    | exact ⟨rfl, rfl⟩
    | exact ⟨rfl, rfl, rfl⟩

/-- An instruction with a memory operand takes its row's cycles and the cross where the row has it. -/
theorem instructionCycles_operand {i : Instr} {o : MemOperand} (s : State) (h : memOperand i = some o) :
    instructionCycles i s = rowCycles i (resolve o s).crossed := by
  have hp := row_penalty i
  unfold instructionCycles extraCycles rowCycles
  cases hi : i.row.penalty with
  | no => rfl
  | cross => simp only [h]
  | branch => rw [hi, h] at hp; exact absurd hp.1 (by simp)

theorem instructionCycles_branch {i : Instr} {f : Flag} {v : Bool} {off : Int} (s : State)
    (h : branchOf i = some (f, v, off)) : instructionCycles i s =
      2 + if flagOf f s.cpu.p = v then 1 + (pageDiffers (branchNext s) (branchTarget off s)).toNat else 0 := by
  have hp := row_penalty i
  unfold instructionCycles extraCycles
  cases hi : i.row.penalty with
  | no => rw [hi, h] at hp; cases hp
  | cross => rw [hi, h] at hp; cases hp.2
  | branch =>
    rw [hi] at hp
    simp only [h, hp.2.2]

/-- The others take their row's cycles. -/
theorem instructionCycles_plain {i : Instr} (s : State) (h : memOperand i = none) (hb : branchOf i = none) :
    instructionCycles i s = i.row.cycles := by
  unfold instructionCycles extraCycles
  rw [h, hb]
  cases i.row.penalty <;> rfl

end Sys2Proof.Machine
end

