-- ==== Sys2Proof/Laws/Fits.lean ====
section
/-! SUPPORT. Every access of the CPU keeps each memory in its canonical form and inside its size. -/

namespace Sys2Proof.Machine

/-- The memories of the block have their canonical form and their sizes (spec/10_state.md R42 to R49;
spec/70_reset_and_hazards.md R459). -/
def MemoriesFit (s : State) : Prop :=
  s.ram.fits 0x800 = true ∧ s.prgRam.fits 0x2000 = true ∧ s.chrRam.fits 0x2000 = true ∧ s.flatMem.fits 0x10000 = true ∧
    s.ppu.vram.fits 0x800 = true ∧ s.ppu.oam.fits 0x100 = true ∧ s.ppu.palette.fits 0x20 = true

theorem ntIndex_lt (m : Mirroring) (a : Addr) : ntIndex m a < 0x800 := by
  have h (b : Bool) : b.toNat * 0x400 + a.toNat % 0x400 < 0x800 := by
    have := Nat.mod_lt a.toNat (y := 0x400) (by decide)
    have := Bool.toNat_le b
    omega
  unfold ntIndex
  cases m <;> exact h _

theorem palIndex_lt (a : Addr) : palIndex a < 0x20 := by
  have := Nat.mod_lt a.toNat (y := 0x20) (by decide)
  unfold palIndex
  dsimp only
  split <;> omega

theorem ppuWrite_fits (a : Addr) (b : Byte) {s : State} (h : MemoriesFit s) : MemoriesFit (ppuWrite a b s) := by
  obtain ⟨h1, h2, h3, h4, h5, h6, h7⟩ := h
  unfold ppuWrite
  dsimp only
  split
  · next hr =>
    split
    · exact ⟨h1, h2, Memory.fits_write b h3 hr, h4, h5, h6, h7⟩
    · exact ⟨h1, h2, h3, h4, h5, h6, h7⟩
  · split
    · exact ⟨h1, h2, h3, h4, Memory.fits_write b h5 (ntIndex_lt _ _), h6, h7⟩
    · exact ⟨h1, h2, h3, h4, h5, h6, Memory.fits_write b h7 (palIndex_lt _)⟩

theorem ppuRegWrite_fits (r : BitVec 3) (b : Byte) {s : State} (h : MemoriesFit s) : MemoriesFit (ppuRegWrite r b s) := by
  have h' := h
  obtain ⟨h1, h2, h3, h4, h5, h6, h7⟩ := h'
  unfold ppuRegWrite
  split
  · exact ⟨h1, h2, h3, h4, h5, h6, h7⟩
  · exact ⟨h1, h2, h3, h4, h5, h6, h7⟩
  · exact ⟨h1, h2, h3, h4, h5, h6, h7⟩
  · exact ⟨h1, h2, h3, h4, h5, Memory.fits_write b h6 s.ppu.oamAddr.isLt, h7⟩
  · unfold writeScroll
    split <;> exact ⟨h1, h2, h3, h4, h5, h6, h7⟩
  · unfold writeAddr
    split <;> exact ⟨h1, h2, h3, h4, h5, h6, h7⟩
  · exact ppuWrite_fits _ b h
  · exact h

theorem OnlyReadEffects.fits {s t : State} (h : OnlyReadEffects s t) (hf : MemoriesFit s) : MemoriesFit t := by
  rw [h.1]
  exact hf

theorem memRead_fits (a : Addr) {s : State} (h : MemoriesFit s) : MemoriesFit (memRead a s).2 :=
  (memRead_effects a s).fits h

theorem dmaTransfers_fits (n : Nat) (a : Addr) {s : State} (h : MemoriesFit s) : MemoriesFit (dmaTransfers n a s) := by
  induction n generalizing a s with
  | zero => exact h
  | succ n ih => exact ih _ (ppuRegWrite_fits 4 _ (memRead_fits a h))

theorem oamDma_fits (b : Byte) {s : State} (h : MemoriesFit s) : MemoriesFit (oamDma b s) := by
  have ht := dmaTransfers_fits 256 (dmaBase b) h
  unfold oamDma
  generalize dmaTransfers 256 (dmaBase b) s = t at ht ⊢
  exact ht

/-- A routed cell lies inside its memory (20_memory.md R71). -/
theorem route_bounds (c : Config) (a : Addr) : match route c a with
    | .flat i => i < 0x10000
    | .ram i => i < 0x800
    | .prgRam i => i < 0x2000
    | _ => True := by
  have hlt := a.isLt
  have hm := Nat.mod_lt a.toNat (y := 0x800) (by decide)
  unfold route
  cases c.bus with
  | flat => exact hlt
  | system =>
    dsimp only
    by_cases h1 : a.toNat < 0x2000
    · rw [if_pos h1]; exact hm
    rw [if_neg h1]
    by_cases h2 : a.toNat < 0x4000
    · rw [if_pos h2]; trivial
    rw [if_neg h2]
    by_cases h3 : a.toNat = 0x4014
    · rw [if_pos h3]; trivial
    rw [if_neg h3]
    by_cases h4 : a.toNat < 0x6000
    · rw [if_pos h4]; trivial
    rw [if_neg h4]
    by_cases h5 : a.toNat < 0x8000
    · rw [if_pos h5]
      cases c.hasPrgRam with
      | true => show a.toNat - 0x6000 < 0x2000; omega
      | false => trivial
    · rw [if_neg h5]; trivial

/-- Every bus write keeps the memories in form. -/
theorem memWrite_fits (a : Addr) (b : Byte) {s : State} (h : MemoriesFit s) : MemoriesFit (memWrite a b s) := by
  have h' := h
  obtain ⟨h1, h2, h3, h4, h5, h6, h7⟩ := h'
  have hb := route_bounds s.cfg a
  unfold memWrite
  cases hr : route s.cfg a with
  | flat i => exact ⟨h1, h2, h3, Memory.fits_write b h4 (by rw [hr] at hb; exact hb), h5, h6, h7⟩
  | ram i => exact ⟨Memory.fits_write b h1 (by rw [hr] at hb; exact hb), h2, h3, h4, h5, h6, h7⟩
  | ppuPort r => exact ppuRegWrite_fits r b h
  | dmaPort => exact oamDma_fits b h
  | zero => exact h
  | prgRam i => exact ⟨h1, Memory.fits_write b h2 (by rw [hr] at hb; exact hb), h3, h4, h5, h6, h7⟩
  | prgRom i => exact h

theorem push_fits (b : Byte) {s : State} (h : MemoriesFit s) : MemoriesFit (push b s) :=
  memWrite_fits (stackAddr s.cpu.s) b h

end Sys2Proof.Machine
end

