-- ==== Sys2Proof/Laws/Loopy.lean ====
section
/-! SUPPORT. The laws of the loopy registers (spec/10_state.md R30): the five fields of a packed address, and the updates of
`v` and `t` as packings. -/

namespace Sys2Proof.Machine

/-- Two loopy addresses with the same five fields are equal. -/
theorem loopy_ext {v w : BitVec 15} (h1 : fineY v = fineY w) (h2 : ntY v = ntY w) (h3 : ntX v = ntX w)
    (h4 : coarseY v = coarseY w) (h5 : coarseX v = coarseX w) : v = w := by
  have f1 (i : Nat) (hi : i < 3) : v.getLsbD (12 + i) = w.getLsbD (12 + i) := by
    have := congrArg (fun b => b.getLsbD i) h1
    simpa [fineY, BitVec.getLsbD_extractLsb', hi] using this
  have f4 (i : Nat) (hi : i < 5) : v.getLsbD (5 + i) = w.getLsbD (5 + i) := by
    have := congrArg (fun b => b.getLsbD i) h4
    simpa [coarseY, BitVec.getLsbD_extractLsb', hi] using this
  have f5 (i : Nat) (hi : i < 5) : v.getLsbD (0 + i) = w.getLsbD (0 + i) := by
    have := congrArg (fun b => b.getLsbD i) h5
    simpa [coarseX, BitVec.getLsbD_extractLsb', hi] using this
  apply BitVec.eq_of_getLsbD_eq
  intro i hi
  interval_cases i
  · exact f5 0 (by decide)
  · exact f5 1 (by decide)
  · exact f5 2 (by decide)
  · exact f5 3 (by decide)
  · exact f5 4 (by decide)
  · exact f4 0 (by decide)
  · exact f4 1 (by decide)
  · exact f4 2 (by decide)
  · exact f4 3 (by decide)
  · exact f4 4 (by decide)
  · exact h3
  · exact h2
  · exact f1 0 (by decide)
  · exact f1 1 (by decide)
  · exact f1 2 (by decide)

section Fields
variable (fy : BitVec 3) (ny nx : Bool) (cy cx : BitVec 5)

/-- The bits of a packed address. -/
theorem packLoopy_bit (i : Nat) : (packLoopy fy ny nx cy cx).getLsbD i =
    if i < 5 then cx.getLsbD i else if i < 10 then cy.getLsbD (i - 5) else if i = 10 then nx else if i = 11 then ny
    else fy.getLsbD (i - 12) := by
  show (fy ++ BitVec.ofBool ny ++ BitVec.ofBool nx ++ cy ++ cx : BitVec (3 + 1 + 1 + 5 + 5)).getLsbD i = _
  rw [BitVec.getLsbD_append, BitVec.getLsbD_append, BitVec.getLsbD_append, BitVec.getLsbD_append]
  by_cases h1 : i < 5
  · rw [if_pos h1, if_pos h1]
  · rw [if_neg h1, if_neg h1]
    by_cases h2 : i < 10
    · rw [if_pos (by omega), if_pos h2]
    · rw [if_neg (by omega), if_neg h2]
      by_cases h3 : i = 10
      · subst h3; simp
      · rw [if_neg (by omega), if_neg h3]
        by_cases h4 : i = 11
        · subst h4; simp
        · rw [if_neg (by omega), if_neg h4]
          congr 1

@[simp] theorem fineY_packLoopy : fineY (packLoopy fy ny nx cy cx) = fy := by
  apply BitVec.eq_of_getLsbD_eq
  intro i hi
  rw [fineY, BitVec.getLsbD_extractLsb', packLoopy_bit, if_neg (by omega), if_neg (by omega), if_neg (by omega),
    if_neg (by omega), Nat.add_sub_cancel_left, decide_eq_true hi, Bool.true_and]

@[simp] theorem ntY_packLoopy : ntY (packLoopy fy ny nx cy cx) = ny := by
  rw [ntY, packLoopy_bit]
  rfl

@[simp] theorem ntX_packLoopy : ntX (packLoopy fy ny nx cy cx) = nx := by
  rw [ntX, packLoopy_bit]
  rfl

@[simp] theorem coarseY_packLoopy : coarseY (packLoopy fy ny nx cy cx) = cy := by
  apply BitVec.eq_of_getLsbD_eq
  intro i hi
  rw [coarseY, BitVec.getLsbD_extractLsb', packLoopy_bit, if_neg (by omega), if_pos (by omega),
    Nat.add_sub_cancel_left, decide_eq_true hi, Bool.true_and]

@[simp] theorem coarseX_packLoopy : coarseX (packLoopy fy ny nx cy cx) = cx := by
  apply BitVec.eq_of_getLsbD_eq
  intro i hi
  rw [coarseX, BitVec.getLsbD_extractLsb', packLoopy_bit, if_pos (by omega), Nat.zero_add, decide_eq_true hi,
    Bool.true_and]

end Fields

/-- An address is the packing of its fields. -/
theorem packLoopy_fields (v : BitVec 15) : packLoopy (fineY v) (ntY v) (ntX v) (coarseY v) (coarseX v) = v := by
  apply loopy_ext <;> simp

/-- `CopyX()` as a packing (spec/48_ppu_dot_machine.md R368). -/
theorem copyX_eq (u : Ppu) : copyX u = packLoopy (fineY u.v) (ntY u.v) (ntX u.t) (coarseY u.v) (coarseX u.t) := by
  apply loopy_ext <;> simp only [fineY_packLoopy, ntY_packLoopy, ntX_packLoopy, coarseY_packLoopy, coarseX_packLoopy]
  · apply BitVec.eq_of_getLsbD_eq; intro i hi
    interval_cases i <;> simp [fineY, copyX]
  · simp [ntY, copyX]
  · simp [ntX, copyX]
  · apply BitVec.eq_of_getLsbD_eq; intro i hi
    interval_cases i <;> simp [coarseY, copyX]
  · apply BitVec.eq_of_getLsbD_eq; intro i hi
    interval_cases i <;> simp [coarseX, copyX]

/-- `CopyY()` as a packing (R369). -/
theorem copyY_eq (u : Ppu) : copyY u = packLoopy (fineY u.t) (ntY u.t) (ntX u.v) (coarseY u.t) (coarseX u.v) := by
  apply loopy_ext <;> simp only [fineY_packLoopy, ntY_packLoopy, ntX_packLoopy, coarseY_packLoopy, coarseX_packLoopy]
  · apply BitVec.eq_of_getLsbD_eq; intro i hi
    interval_cases i <;> simp [fineY, copyY]
  · simp [ntY, copyY]
  · simp [ntX, copyY]
  · apply BitVec.eq_of_getLsbD_eq; intro i hi
    interval_cases i <;> simp [coarseY, copyY]
  · apply BitVec.eq_of_getLsbD_eq; intro i hi
    interval_cases i <;> simp [coarseX, copyY]

/-- `IncX()` as a packing (spec/48_ppu_dot_machine.md R359). -/
theorem incX_eq (v : BitVec 15) :
    incX v = packLoopy (fineY v) (ntY v) (if coarseX v = 31 then !ntX v else ntX v) (coarseY v) (coarseX v + 1) := by
  unfold incX withNtX withCoarseX
  split
  · next h => simp [h]
  · rfl

/-- `IncY()` as a packing (R367). -/
theorem incY_eq (v : BitVec 15) :
    incY v = packLoopy (fineY v + 1) (if fineY v = 7 ∧ coarseY v = 29 then !ntY v else ntY v) (ntX v)
      (if fineY v ≠ 7 then coarseY v else if coarseY v = 29 ∨ coarseY v = 31 then 0 else coarseY v + 1) (coarseX v) := by
  have h7 : (fineY v).toNat < 7 ↔ fineY v ≠ 7 := by
    have := (fineY v).isLt
    rw [ne_eq, ← BitVec.toNat_inj]
    show _ ↔ ¬ (fineY v).toNat = 7
    omega
  unfold incY withNtY withFineY withCoarseY
  simp only [h7]
  by_cases h : fineY v = 7
  · have h8 : fineY v + 1 = 0 := by rw [h]; rfl
    rw [if_neg (fun hn => hn h), h8]
    by_cases h29 : coarseY v = 29
    · simp only [ntY_packLoopy, ntX_packLoopy, fineY_packLoopy, coarseY_packLoopy, coarseX_packLoopy, h29, h, if_true,
        and_self, true_or, ne_eq, not_true_eq_false, if_false]
    · by_cases h31 : coarseY v = 31
      · simp only [ntY_packLoopy, ntX_packLoopy, fineY_packLoopy, coarseY_packLoopy, coarseX_packLoopy, h31, h,
          if_true, if_false, or_true, ne_eq, not_true_eq_false]
        rfl
      · simp only [ntY_packLoopy, ntX_packLoopy, fineY_packLoopy, coarseY_packLoopy, coarseX_packLoopy, h29, h31, h,
          if_false, and_false, or_self, ne_eq, not_true_eq_false]
  · simp only [h, ne_eq, not_false_eq_true, if_true, false_and, if_false]

/-- The fields of `t` after a PPUCTRL write (spec/47_ppu_registers.md R321). -/
theorem writeCtrl_t (b : Byte) (u : Ppu) :
    (writeCtrl b u).t = packLoopy (fineY u.t) (b.getLsbD 1) (b.getLsbD 0) (coarseY u.t) (coarseX u.t) := by
  apply loopy_ext <;> simp only [fineY_packLoopy, ntY_packLoopy, ntX_packLoopy, coarseY_packLoopy, coarseX_packLoopy]
  · apply BitVec.eq_of_getLsbD_eq; intro i hi
    interval_cases i <;> simp [fineY, writeCtrl]
  · simp [ntY, writeCtrl]
  · simp [ntX, writeCtrl]
  · apply BitVec.eq_of_getLsbD_eq; intro i hi
    interval_cases i <;> simp [coarseY, writeCtrl]
  · apply BitVec.eq_of_getLsbD_eq; intro i hi
    interval_cases i <;> simp [coarseX, writeCtrl]

/-- The fields of `t` after a first PPUSCROLL write (R328). -/
theorem writeScroll_first (b : Byte) (u : Ppu) (h : u.w = false) :
    (writeScroll b u).t = packLoopy (fineY u.t) (ntY u.t) (ntX u.t) (coarseY u.t) (b.extractLsb' 3 5) := by
  unfold writeScroll
  rw [h, if_neg (by simp)]
  apply loopy_ext <;> simp only [fineY_packLoopy, ntY_packLoopy, ntX_packLoopy, coarseY_packLoopy, coarseX_packLoopy]
  · apply BitVec.eq_of_getLsbD_eq; intro i hi
    interval_cases i <;> simp [fineY]
  · simp [ntY]
  · simp [ntX]
  · apply BitVec.eq_of_getLsbD_eq; intro i hi
    interval_cases i <;> simp [coarseY]
  · apply BitVec.eq_of_getLsbD_eq; intro i hi
    interval_cases i <;> simp [coarseX]

/-- The fields of `t` after a second PPUSCROLL write (R328). -/
theorem writeScroll_second (b : Byte) (u : Ppu) (h : u.w = true) :
    (writeScroll b u).t = packLoopy (b.extractLsb' 0 3) (ntY u.t) (ntX u.t) (b.extractLsb' 3 5) (coarseX u.t) := by
  unfold writeScroll
  rw [h, if_pos rfl]
  apply loopy_ext <;> simp only [fineY_packLoopy, ntY_packLoopy, ntX_packLoopy, coarseY_packLoopy, coarseX_packLoopy]
  · apply BitVec.eq_of_getLsbD_eq; intro i hi
    interval_cases i <;> simp [fineY]
  · simp [ntY]
  · simp [ntX]
  · apply BitVec.eq_of_getLsbD_eq; intro i hi
    interval_cases i <;> simp [coarseY]
  · apply BitVec.eq_of_getLsbD_eq; intro i hi
    interval_cases i <;> simp [coarseX]

end Sys2Proof.Machine
end

