-- ==== Sys2Proof/Laws/PerInstr.lean ====
section
/-! SUPPORT. The shape of every instruction's encoding, one lemma for each constructor. -/

namespace Sys2Proof.Laws.EncodeForm

/-- The bytes of an instruction start with its row's opcode and are as many as its row says, the decoder takes the
same length from that opcode, and whatever operand bytes follow, the instruction read has the same row
(spec/30_encoding.md R120, R121, R126). -/
def Statement (i : Instr) : Prop :=
  (encode i).head? = some i.row.opcode ∧ (encode i).length = i.row.length ∧
    lengthOf i.row.opcode = i.row.length ∧ ∀ b1 b2, ∃ j, instrOf i.row.opcode b1 b2 = some j ∧ j.row = i.row

theorem brk : Statement .brk :=
  ⟨rfl, rfl, (rfl : lengthOf 0x00 = 1),
    fun b1 b2 => ⟨.brk, (rfl : instrOf 0x00 b1 b2 = some (.brk)), rfl⟩⟩
theorem oraIndX (zp : Byte) : Statement (.oraIndX zp) :=
  ⟨rfl, rfl, (rfl : lengthOf 0x01 = 2),
    fun b1 b2 => ⟨.oraIndX b1, (rfl : instrOf 0x01 b1 b2 = some (.oraIndX b1)), rfl⟩⟩
theorem nop04 (zp : Byte) : Statement (.nop04 zp) :=
  ⟨rfl, rfl, (rfl : lengthOf 0x04 = 2),
    fun b1 b2 => ⟨.nop04 b1, (rfl : instrOf 0x04 b1 b2 = some (.nop04 b1)), rfl⟩⟩
theorem oraZp (zp : Byte) : Statement (.oraZp zp) :=
  ⟨rfl, rfl, (rfl : lengthOf 0x05 = 2),
    fun b1 b2 => ⟨.oraZp b1, (rfl : instrOf 0x05 b1 b2 = some (.oraZp b1)), rfl⟩⟩
theorem aslZp (zp : Byte) : Statement (.aslZp zp) :=
  ⟨rfl, rfl, (rfl : lengthOf 0x06 = 2),
    fun b1 b2 => ⟨.aslZp b1, (rfl : instrOf 0x06 b1 b2 = some (.aslZp b1)), rfl⟩⟩
theorem php : Statement .php :=
  ⟨rfl, rfl, (rfl : lengthOf 0x08 = 1),
    fun b1 b2 => ⟨.php, (rfl : instrOf 0x08 b1 b2 = some (.php)), rfl⟩⟩
theorem oraImm (imm : Byte) : Statement (.oraImm imm) :=
  ⟨rfl, rfl, (rfl : lengthOf 0x09 = 2),
    fun b1 b2 => ⟨.oraImm b1, (rfl : instrOf 0x09 b1 b2 = some (.oraImm b1)), rfl⟩⟩
theorem aslAcc : Statement .aslAcc :=
  ⟨rfl, rfl, (rfl : lengthOf 0x0A = 1),
    fun b1 b2 => ⟨.aslAcc, (rfl : instrOf 0x0A b1 b2 = some (.aslAcc)), rfl⟩⟩
theorem nop0C (addr : Addr) : Statement (.nop0C addr) :=
  ⟨rfl, rfl, (rfl : lengthOf 0x0C = 3),
    fun b1 b2 => ⟨.nop0C (word b2 b1), (rfl : instrOf 0x0C b1 b2 = some (.nop0C (word b2 b1))), rfl⟩⟩
theorem oraAbs (addr : Addr) : Statement (.oraAbs addr) :=
  ⟨rfl, rfl, (rfl : lengthOf 0x0D = 3),
    fun b1 b2 => ⟨.oraAbs (word b2 b1), (rfl : instrOf 0x0D b1 b2 = some (.oraAbs (word b2 b1))), rfl⟩⟩
theorem aslAbs (addr : Addr) : Statement (.aslAbs addr) :=
  ⟨rfl, rfl, (rfl : lengthOf 0x0E = 3),
    fun b1 b2 => ⟨.aslAbs (word b2 b1), (rfl : instrOf 0x0E b1 b2 = some (.aslAbs (word b2 b1))), rfl⟩⟩
theorem bpl (off : Int) : Statement (.bpl off) :=
  ⟨rfl, rfl, (rfl : lengthOf 0x10 = 2),
    fun b1 b2 => ⟨.bpl b1.toInt, (rfl : instrOf 0x10 b1 b2 = some (.bpl b1.toInt)), rfl⟩⟩
theorem oraIndY (zp : Byte) : Statement (.oraIndY zp) :=
  ⟨rfl, rfl, (rfl : lengthOf 0x11 = 2),
    fun b1 b2 => ⟨.oraIndY b1, (rfl : instrOf 0x11 b1 b2 = some (.oraIndY b1)), rfl⟩⟩
theorem nop14 (zp : Byte) : Statement (.nop14 zp) :=
  ⟨rfl, rfl, (rfl : lengthOf 0x14 = 2),
    fun b1 b2 => ⟨.nop14 b1, (rfl : instrOf 0x14 b1 b2 = some (.nop14 b1)), rfl⟩⟩
theorem oraZpX (zp : Byte) : Statement (.oraZpX zp) :=
  ⟨rfl, rfl, (rfl : lengthOf 0x15 = 2),
    fun b1 b2 => ⟨.oraZpX b1, (rfl : instrOf 0x15 b1 b2 = some (.oraZpX b1)), rfl⟩⟩
theorem aslZpX (zp : Byte) : Statement (.aslZpX zp) :=
  ⟨rfl, rfl, (rfl : lengthOf 0x16 = 2),
    fun b1 b2 => ⟨.aslZpX b1, (rfl : instrOf 0x16 b1 b2 = some (.aslZpX b1)), rfl⟩⟩
theorem clc : Statement .clc :=
  ⟨rfl, rfl, (rfl : lengthOf 0x18 = 1),
    fun b1 b2 => ⟨.clc, (rfl : instrOf 0x18 b1 b2 = some (.clc)), rfl⟩⟩
theorem oraAbsY (addr : Addr) : Statement (.oraAbsY addr) :=
  ⟨rfl, rfl, (rfl : lengthOf 0x19 = 3),
    fun b1 b2 => ⟨.oraAbsY (word b2 b1), (rfl : instrOf 0x19 b1 b2 = some (.oraAbsY (word b2 b1))), rfl⟩⟩
theorem nop1A : Statement .nop1A :=
  ⟨rfl, rfl, (rfl : lengthOf 0x1A = 1),
    fun b1 b2 => ⟨.nop1A, (rfl : instrOf 0x1A b1 b2 = some (.nop1A)), rfl⟩⟩
theorem nop1C (addr : Addr) : Statement (.nop1C addr) :=
  ⟨rfl, rfl, (rfl : lengthOf 0x1C = 3),
    fun b1 b2 => ⟨.nop1C (word b2 b1), (rfl : instrOf 0x1C b1 b2 = some (.nop1C (word b2 b1))), rfl⟩⟩
theorem oraAbsX (addr : Addr) : Statement (.oraAbsX addr) :=
  ⟨rfl, rfl, (rfl : lengthOf 0x1D = 3),
    fun b1 b2 => ⟨.oraAbsX (word b2 b1), (rfl : instrOf 0x1D b1 b2 = some (.oraAbsX (word b2 b1))), rfl⟩⟩
theorem aslAbsX (addr : Addr) : Statement (.aslAbsX addr) :=
  ⟨rfl, rfl, (rfl : lengthOf 0x1E = 3),
    fun b1 b2 => ⟨.aslAbsX (word b2 b1), (rfl : instrOf 0x1E b1 b2 = some (.aslAbsX (word b2 b1))), rfl⟩⟩
theorem jsr (addr : Addr) : Statement (.jsr addr) :=
  ⟨rfl, rfl, (rfl : lengthOf 0x20 = 3),
    fun b1 b2 => ⟨.jsr (word b2 b1), (rfl : instrOf 0x20 b1 b2 = some (.jsr (word b2 b1))), rfl⟩⟩
theorem andIndX (zp : Byte) : Statement (.andIndX zp) :=
  ⟨rfl, rfl, (rfl : lengthOf 0x21 = 2),
    fun b1 b2 => ⟨.andIndX b1, (rfl : instrOf 0x21 b1 b2 = some (.andIndX b1)), rfl⟩⟩
theorem bitZp (zp : Byte) : Statement (.bitZp zp) :=
  ⟨rfl, rfl, (rfl : lengthOf 0x24 = 2),
    fun b1 b2 => ⟨.bitZp b1, (rfl : instrOf 0x24 b1 b2 = some (.bitZp b1)), rfl⟩⟩
theorem andZp (zp : Byte) : Statement (.andZp zp) :=
  ⟨rfl, rfl, (rfl : lengthOf 0x25 = 2),
    fun b1 b2 => ⟨.andZp b1, (rfl : instrOf 0x25 b1 b2 = some (.andZp b1)), rfl⟩⟩
theorem rolZp (zp : Byte) : Statement (.rolZp zp) :=
  ⟨rfl, rfl, (rfl : lengthOf 0x26 = 2),
    fun b1 b2 => ⟨.rolZp b1, (rfl : instrOf 0x26 b1 b2 = some (.rolZp b1)), rfl⟩⟩
theorem plp : Statement .plp :=
  ⟨rfl, rfl, (rfl : lengthOf 0x28 = 1),
    fun b1 b2 => ⟨.plp, (rfl : instrOf 0x28 b1 b2 = some (.plp)), rfl⟩⟩
theorem andImm (imm : Byte) : Statement (.andImm imm) :=
  ⟨rfl, rfl, (rfl : lengthOf 0x29 = 2),
    fun b1 b2 => ⟨.andImm b1, (rfl : instrOf 0x29 b1 b2 = some (.andImm b1)), rfl⟩⟩
theorem rolAcc : Statement .rolAcc :=
  ⟨rfl, rfl, (rfl : lengthOf 0x2A = 1),
    fun b1 b2 => ⟨.rolAcc, (rfl : instrOf 0x2A b1 b2 = some (.rolAcc)), rfl⟩⟩
theorem bitAbs (addr : Addr) : Statement (.bitAbs addr) :=
  ⟨rfl, rfl, (rfl : lengthOf 0x2C = 3),
    fun b1 b2 => ⟨.bitAbs (word b2 b1), (rfl : instrOf 0x2C b1 b2 = some (.bitAbs (word b2 b1))), rfl⟩⟩
theorem andAbs (addr : Addr) : Statement (.andAbs addr) :=
  ⟨rfl, rfl, (rfl : lengthOf 0x2D = 3),
    fun b1 b2 => ⟨.andAbs (word b2 b1), (rfl : instrOf 0x2D b1 b2 = some (.andAbs (word b2 b1))), rfl⟩⟩
theorem rolAbs (addr : Addr) : Statement (.rolAbs addr) :=
  ⟨rfl, rfl, (rfl : lengthOf 0x2E = 3),
    fun b1 b2 => ⟨.rolAbs (word b2 b1), (rfl : instrOf 0x2E b1 b2 = some (.rolAbs (word b2 b1))), rfl⟩⟩
theorem bmi (off : Int) : Statement (.bmi off) :=
  ⟨rfl, rfl, (rfl : lengthOf 0x30 = 2),
    fun b1 b2 => ⟨.bmi b1.toInt, (rfl : instrOf 0x30 b1 b2 = some (.bmi b1.toInt)), rfl⟩⟩
theorem andIndY (zp : Byte) : Statement (.andIndY zp) :=
  ⟨rfl, rfl, (rfl : lengthOf 0x31 = 2),
    fun b1 b2 => ⟨.andIndY b1, (rfl : instrOf 0x31 b1 b2 = some (.andIndY b1)), rfl⟩⟩
theorem nop34 (zp : Byte) : Statement (.nop34 zp) :=
  ⟨rfl, rfl, (rfl : lengthOf 0x34 = 2),
    fun b1 b2 => ⟨.nop34 b1, (rfl : instrOf 0x34 b1 b2 = some (.nop34 b1)), rfl⟩⟩
theorem andZpX (zp : Byte) : Statement (.andZpX zp) :=
  ⟨rfl, rfl, (rfl : lengthOf 0x35 = 2),
    fun b1 b2 => ⟨.andZpX b1, (rfl : instrOf 0x35 b1 b2 = some (.andZpX b1)), rfl⟩⟩
theorem rolZpX (zp : Byte) : Statement (.rolZpX zp) :=
  ⟨rfl, rfl, (rfl : lengthOf 0x36 = 2),
    fun b1 b2 => ⟨.rolZpX b1, (rfl : instrOf 0x36 b1 b2 = some (.rolZpX b1)), rfl⟩⟩
theorem sec : Statement .sec :=
  ⟨rfl, rfl, (rfl : lengthOf 0x38 = 1),
    fun b1 b2 => ⟨.sec, (rfl : instrOf 0x38 b1 b2 = some (.sec)), rfl⟩⟩
theorem andAbsY (addr : Addr) : Statement (.andAbsY addr) :=
  ⟨rfl, rfl, (rfl : lengthOf 0x39 = 3),
    fun b1 b2 => ⟨.andAbsY (word b2 b1), (rfl : instrOf 0x39 b1 b2 = some (.andAbsY (word b2 b1))), rfl⟩⟩
theorem nop3A : Statement .nop3A :=
  ⟨rfl, rfl, (rfl : lengthOf 0x3A = 1),
    fun b1 b2 => ⟨.nop3A, (rfl : instrOf 0x3A b1 b2 = some (.nop3A)), rfl⟩⟩
theorem nop3C (addr : Addr) : Statement (.nop3C addr) :=
  ⟨rfl, rfl, (rfl : lengthOf 0x3C = 3),
    fun b1 b2 => ⟨.nop3C (word b2 b1), (rfl : instrOf 0x3C b1 b2 = some (.nop3C (word b2 b1))), rfl⟩⟩
theorem andAbsX (addr : Addr) : Statement (.andAbsX addr) :=
  ⟨rfl, rfl, (rfl : lengthOf 0x3D = 3),
    fun b1 b2 => ⟨.andAbsX (word b2 b1), (rfl : instrOf 0x3D b1 b2 = some (.andAbsX (word b2 b1))), rfl⟩⟩
theorem rolAbsX (addr : Addr) : Statement (.rolAbsX addr) :=
  ⟨rfl, rfl, (rfl : lengthOf 0x3E = 3),
    fun b1 b2 => ⟨.rolAbsX (word b2 b1), (rfl : instrOf 0x3E b1 b2 = some (.rolAbsX (word b2 b1))), rfl⟩⟩
theorem rti : Statement .rti :=
  ⟨rfl, rfl, (rfl : lengthOf 0x40 = 1),
    fun b1 b2 => ⟨.rti, (rfl : instrOf 0x40 b1 b2 = some (.rti)), rfl⟩⟩
theorem eorIndX (zp : Byte) : Statement (.eorIndX zp) :=
  ⟨rfl, rfl, (rfl : lengthOf 0x41 = 2),
    fun b1 b2 => ⟨.eorIndX b1, (rfl : instrOf 0x41 b1 b2 = some (.eorIndX b1)), rfl⟩⟩
theorem nop44 (zp : Byte) : Statement (.nop44 zp) :=
  ⟨rfl, rfl, (rfl : lengthOf 0x44 = 2),
    fun b1 b2 => ⟨.nop44 b1, (rfl : instrOf 0x44 b1 b2 = some (.nop44 b1)), rfl⟩⟩
theorem eorZp (zp : Byte) : Statement (.eorZp zp) :=
  ⟨rfl, rfl, (rfl : lengthOf 0x45 = 2),
    fun b1 b2 => ⟨.eorZp b1, (rfl : instrOf 0x45 b1 b2 = some (.eorZp b1)), rfl⟩⟩
theorem lsrZp (zp : Byte) : Statement (.lsrZp zp) :=
  ⟨rfl, rfl, (rfl : lengthOf 0x46 = 2),
    fun b1 b2 => ⟨.lsrZp b1, (rfl : instrOf 0x46 b1 b2 = some (.lsrZp b1)), rfl⟩⟩
theorem pha : Statement .pha :=
  ⟨rfl, rfl, (rfl : lengthOf 0x48 = 1),
    fun b1 b2 => ⟨.pha, (rfl : instrOf 0x48 b1 b2 = some (.pha)), rfl⟩⟩
theorem eorImm (imm : Byte) : Statement (.eorImm imm) :=
  ⟨rfl, rfl, (rfl : lengthOf 0x49 = 2),
    fun b1 b2 => ⟨.eorImm b1, (rfl : instrOf 0x49 b1 b2 = some (.eorImm b1)), rfl⟩⟩
theorem lsrAcc : Statement .lsrAcc :=
  ⟨rfl, rfl, (rfl : lengthOf 0x4A = 1),
    fun b1 b2 => ⟨.lsrAcc, (rfl : instrOf 0x4A b1 b2 = some (.lsrAcc)), rfl⟩⟩
theorem jmpAbs (addr : Addr) : Statement (.jmpAbs addr) :=
  ⟨rfl, rfl, (rfl : lengthOf 0x4C = 3),
    fun b1 b2 => ⟨.jmpAbs (word b2 b1), (rfl : instrOf 0x4C b1 b2 = some (.jmpAbs (word b2 b1))), rfl⟩⟩
theorem eorAbs (addr : Addr) : Statement (.eorAbs addr) :=
  ⟨rfl, rfl, (rfl : lengthOf 0x4D = 3),
    fun b1 b2 => ⟨.eorAbs (word b2 b1), (rfl : instrOf 0x4D b1 b2 = some (.eorAbs (word b2 b1))), rfl⟩⟩
theorem lsrAbs (addr : Addr) : Statement (.lsrAbs addr) :=
  ⟨rfl, rfl, (rfl : lengthOf 0x4E = 3),
    fun b1 b2 => ⟨.lsrAbs (word b2 b1), (rfl : instrOf 0x4E b1 b2 = some (.lsrAbs (word b2 b1))), rfl⟩⟩
theorem bvc (off : Int) : Statement (.bvc off) :=
  ⟨rfl, rfl, (rfl : lengthOf 0x50 = 2),
    fun b1 b2 => ⟨.bvc b1.toInt, (rfl : instrOf 0x50 b1 b2 = some (.bvc b1.toInt)), rfl⟩⟩
theorem eorIndY (zp : Byte) : Statement (.eorIndY zp) :=
  ⟨rfl, rfl, (rfl : lengthOf 0x51 = 2),
    fun b1 b2 => ⟨.eorIndY b1, (rfl : instrOf 0x51 b1 b2 = some (.eorIndY b1)), rfl⟩⟩
theorem nop54 (zp : Byte) : Statement (.nop54 zp) :=
  ⟨rfl, rfl, (rfl : lengthOf 0x54 = 2),
    fun b1 b2 => ⟨.nop54 b1, (rfl : instrOf 0x54 b1 b2 = some (.nop54 b1)), rfl⟩⟩
theorem eorZpX (zp : Byte) : Statement (.eorZpX zp) :=
  ⟨rfl, rfl, (rfl : lengthOf 0x55 = 2),
    fun b1 b2 => ⟨.eorZpX b1, (rfl : instrOf 0x55 b1 b2 = some (.eorZpX b1)), rfl⟩⟩
theorem lsrZpX (zp : Byte) : Statement (.lsrZpX zp) :=
  ⟨rfl, rfl, (rfl : lengthOf 0x56 = 2),
    fun b1 b2 => ⟨.lsrZpX b1, (rfl : instrOf 0x56 b1 b2 = some (.lsrZpX b1)), rfl⟩⟩
theorem cli : Statement .cli :=
  ⟨rfl, rfl, (rfl : lengthOf 0x58 = 1),
    fun b1 b2 => ⟨.cli, (rfl : instrOf 0x58 b1 b2 = some (.cli)), rfl⟩⟩
theorem eorAbsY (addr : Addr) : Statement (.eorAbsY addr) :=
  ⟨rfl, rfl, (rfl : lengthOf 0x59 = 3),
    fun b1 b2 => ⟨.eorAbsY (word b2 b1), (rfl : instrOf 0x59 b1 b2 = some (.eorAbsY (word b2 b1))), rfl⟩⟩
theorem nop5A : Statement .nop5A :=
  ⟨rfl, rfl, (rfl : lengthOf 0x5A = 1),
    fun b1 b2 => ⟨.nop5A, (rfl : instrOf 0x5A b1 b2 = some (.nop5A)), rfl⟩⟩
theorem nop5C (addr : Addr) : Statement (.nop5C addr) :=
  ⟨rfl, rfl, (rfl : lengthOf 0x5C = 3),
    fun b1 b2 => ⟨.nop5C (word b2 b1), (rfl : instrOf 0x5C b1 b2 = some (.nop5C (word b2 b1))), rfl⟩⟩
theorem eorAbsX (addr : Addr) : Statement (.eorAbsX addr) :=
  ⟨rfl, rfl, (rfl : lengthOf 0x5D = 3),
    fun b1 b2 => ⟨.eorAbsX (word b2 b1), (rfl : instrOf 0x5D b1 b2 = some (.eorAbsX (word b2 b1))), rfl⟩⟩
theorem lsrAbsX (addr : Addr) : Statement (.lsrAbsX addr) :=
  ⟨rfl, rfl, (rfl : lengthOf 0x5E = 3),
    fun b1 b2 => ⟨.lsrAbsX (word b2 b1), (rfl : instrOf 0x5E b1 b2 = some (.lsrAbsX (word b2 b1))), rfl⟩⟩
theorem rts : Statement .rts :=
  ⟨rfl, rfl, (rfl : lengthOf 0x60 = 1),
    fun b1 b2 => ⟨.rts, (rfl : instrOf 0x60 b1 b2 = some (.rts)), rfl⟩⟩
theorem adcIndX (zp : Byte) : Statement (.adcIndX zp) :=
  ⟨rfl, rfl, (rfl : lengthOf 0x61 = 2),
    fun b1 b2 => ⟨.adcIndX b1, (rfl : instrOf 0x61 b1 b2 = some (.adcIndX b1)), rfl⟩⟩
theorem nop64 (zp : Byte) : Statement (.nop64 zp) :=
  ⟨rfl, rfl, (rfl : lengthOf 0x64 = 2),
    fun b1 b2 => ⟨.nop64 b1, (rfl : instrOf 0x64 b1 b2 = some (.nop64 b1)), rfl⟩⟩
theorem adcZp (zp : Byte) : Statement (.adcZp zp) :=
  ⟨rfl, rfl, (rfl : lengthOf 0x65 = 2),
    fun b1 b2 => ⟨.adcZp b1, (rfl : instrOf 0x65 b1 b2 = some (.adcZp b1)), rfl⟩⟩
theorem rorZp (zp : Byte) : Statement (.rorZp zp) :=
  ⟨rfl, rfl, (rfl : lengthOf 0x66 = 2),
    fun b1 b2 => ⟨.rorZp b1, (rfl : instrOf 0x66 b1 b2 = some (.rorZp b1)), rfl⟩⟩
theorem pla : Statement .pla :=
  ⟨rfl, rfl, (rfl : lengthOf 0x68 = 1),
    fun b1 b2 => ⟨.pla, (rfl : instrOf 0x68 b1 b2 = some (.pla)), rfl⟩⟩
theorem adcImm (imm : Byte) : Statement (.adcImm imm) :=
  ⟨rfl, rfl, (rfl : lengthOf 0x69 = 2),
    fun b1 b2 => ⟨.adcImm b1, (rfl : instrOf 0x69 b1 b2 = some (.adcImm b1)), rfl⟩⟩
theorem rorAcc : Statement .rorAcc :=
  ⟨rfl, rfl, (rfl : lengthOf 0x6A = 1),
    fun b1 b2 => ⟨.rorAcc, (rfl : instrOf 0x6A b1 b2 = some (.rorAcc)), rfl⟩⟩
theorem jmpInd (addr : Addr) : Statement (.jmpInd addr) :=
  ⟨rfl, rfl, (rfl : lengthOf 0x6C = 3),
    fun b1 b2 => ⟨.jmpInd (word b2 b1), (rfl : instrOf 0x6C b1 b2 = some (.jmpInd (word b2 b1))), rfl⟩⟩
theorem adcAbs (addr : Addr) : Statement (.adcAbs addr) :=
  ⟨rfl, rfl, (rfl : lengthOf 0x6D = 3),
    fun b1 b2 => ⟨.adcAbs (word b2 b1), (rfl : instrOf 0x6D b1 b2 = some (.adcAbs (word b2 b1))), rfl⟩⟩
theorem rorAbs (addr : Addr) : Statement (.rorAbs addr) :=
  ⟨rfl, rfl, (rfl : lengthOf 0x6E = 3),
    fun b1 b2 => ⟨.rorAbs (word b2 b1), (rfl : instrOf 0x6E b1 b2 = some (.rorAbs (word b2 b1))), rfl⟩⟩
theorem bvs (off : Int) : Statement (.bvs off) :=
  ⟨rfl, rfl, (rfl : lengthOf 0x70 = 2),
    fun b1 b2 => ⟨.bvs b1.toInt, (rfl : instrOf 0x70 b1 b2 = some (.bvs b1.toInt)), rfl⟩⟩
theorem adcIndY (zp : Byte) : Statement (.adcIndY zp) :=
  ⟨rfl, rfl, (rfl : lengthOf 0x71 = 2),
    fun b1 b2 => ⟨.adcIndY b1, (rfl : instrOf 0x71 b1 b2 = some (.adcIndY b1)), rfl⟩⟩
theorem nop74 (zp : Byte) : Statement (.nop74 zp) :=
  ⟨rfl, rfl, (rfl : lengthOf 0x74 = 2),
    fun b1 b2 => ⟨.nop74 b1, (rfl : instrOf 0x74 b1 b2 = some (.nop74 b1)), rfl⟩⟩
theorem adcZpX (zp : Byte) : Statement (.adcZpX zp) :=
  ⟨rfl, rfl, (rfl : lengthOf 0x75 = 2),
    fun b1 b2 => ⟨.adcZpX b1, (rfl : instrOf 0x75 b1 b2 = some (.adcZpX b1)), rfl⟩⟩
theorem rorZpX (zp : Byte) : Statement (.rorZpX zp) :=
  ⟨rfl, rfl, (rfl : lengthOf 0x76 = 2),
    fun b1 b2 => ⟨.rorZpX b1, (rfl : instrOf 0x76 b1 b2 = some (.rorZpX b1)), rfl⟩⟩
theorem sei : Statement .sei :=
  ⟨rfl, rfl, (rfl : lengthOf 0x78 = 1),
    fun b1 b2 => ⟨.sei, (rfl : instrOf 0x78 b1 b2 = some (.sei)), rfl⟩⟩
theorem adcAbsY (addr : Addr) : Statement (.adcAbsY addr) :=
  ⟨rfl, rfl, (rfl : lengthOf 0x79 = 3),
    fun b1 b2 => ⟨.adcAbsY (word b2 b1), (rfl : instrOf 0x79 b1 b2 = some (.adcAbsY (word b2 b1))), rfl⟩⟩
theorem nop7A : Statement .nop7A :=
  ⟨rfl, rfl, (rfl : lengthOf 0x7A = 1),
    fun b1 b2 => ⟨.nop7A, (rfl : instrOf 0x7A b1 b2 = some (.nop7A)), rfl⟩⟩
theorem nop7C (addr : Addr) : Statement (.nop7C addr) :=
  ⟨rfl, rfl, (rfl : lengthOf 0x7C = 3),
    fun b1 b2 => ⟨.nop7C (word b2 b1), (rfl : instrOf 0x7C b1 b2 = some (.nop7C (word b2 b1))), rfl⟩⟩
theorem adcAbsX (addr : Addr) : Statement (.adcAbsX addr) :=
  ⟨rfl, rfl, (rfl : lengthOf 0x7D = 3),
    fun b1 b2 => ⟨.adcAbsX (word b2 b1), (rfl : instrOf 0x7D b1 b2 = some (.adcAbsX (word b2 b1))), rfl⟩⟩
theorem rorAbsX (addr : Addr) : Statement (.rorAbsX addr) :=
  ⟨rfl, rfl, (rfl : lengthOf 0x7E = 3),
    fun b1 b2 => ⟨.rorAbsX (word b2 b1), (rfl : instrOf 0x7E b1 b2 = some (.rorAbsX (word b2 b1))), rfl⟩⟩
theorem nop80 (imm : Byte) : Statement (.nop80 imm) :=
  ⟨rfl, rfl, (rfl : lengthOf 0x80 = 2),
    fun b1 b2 => ⟨.nop80 b1, (rfl : instrOf 0x80 b1 b2 = some (.nop80 b1)), rfl⟩⟩
theorem staIndX (zp : Byte) : Statement (.staIndX zp) :=
  ⟨rfl, rfl, (rfl : lengthOf 0x81 = 2),
    fun b1 b2 => ⟨.staIndX b1, (rfl : instrOf 0x81 b1 b2 = some (.staIndX b1)), rfl⟩⟩
theorem saxIndX (zp : Byte) : Statement (.saxIndX zp) :=
  ⟨rfl, rfl, (rfl : lengthOf 0x83 = 2),
    fun b1 b2 => ⟨.saxIndX b1, (rfl : instrOf 0x83 b1 b2 = some (.saxIndX b1)), rfl⟩⟩
theorem styZp (zp : Byte) : Statement (.styZp zp) :=
  ⟨rfl, rfl, (rfl : lengthOf 0x84 = 2),
    fun b1 b2 => ⟨.styZp b1, (rfl : instrOf 0x84 b1 b2 = some (.styZp b1)), rfl⟩⟩
theorem staZp (zp : Byte) : Statement (.staZp zp) :=
  ⟨rfl, rfl, (rfl : lengthOf 0x85 = 2),
    fun b1 b2 => ⟨.staZp b1, (rfl : instrOf 0x85 b1 b2 = some (.staZp b1)), rfl⟩⟩
theorem stxZp (zp : Byte) : Statement (.stxZp zp) :=
  ⟨rfl, rfl, (rfl : lengthOf 0x86 = 2),
    fun b1 b2 => ⟨.stxZp b1, (rfl : instrOf 0x86 b1 b2 = some (.stxZp b1)), rfl⟩⟩
theorem saxZp (zp : Byte) : Statement (.saxZp zp) :=
  ⟨rfl, rfl, (rfl : lengthOf 0x87 = 2),
    fun b1 b2 => ⟨.saxZp b1, (rfl : instrOf 0x87 b1 b2 = some (.saxZp b1)), rfl⟩⟩
theorem dey : Statement .dey :=
  ⟨rfl, rfl, (rfl : lengthOf 0x88 = 1),
    fun b1 b2 => ⟨.dey, (rfl : instrOf 0x88 b1 b2 = some (.dey)), rfl⟩⟩
theorem txa : Statement .txa :=
  ⟨rfl, rfl, (rfl : lengthOf 0x8A = 1),
    fun b1 b2 => ⟨.txa, (rfl : instrOf 0x8A b1 b2 = some (.txa)), rfl⟩⟩
theorem styAbs (addr : Addr) : Statement (.styAbs addr) :=
  ⟨rfl, rfl, (rfl : lengthOf 0x8C = 3),
    fun b1 b2 => ⟨.styAbs (word b2 b1), (rfl : instrOf 0x8C b1 b2 = some (.styAbs (word b2 b1))), rfl⟩⟩
theorem staAbs (addr : Addr) : Statement (.staAbs addr) :=
  ⟨rfl, rfl, (rfl : lengthOf 0x8D = 3),
    fun b1 b2 => ⟨.staAbs (word b2 b1), (rfl : instrOf 0x8D b1 b2 = some (.staAbs (word b2 b1))), rfl⟩⟩
theorem stxAbs (addr : Addr) : Statement (.stxAbs addr) :=
  ⟨rfl, rfl, (rfl : lengthOf 0x8E = 3),
    fun b1 b2 => ⟨.stxAbs (word b2 b1), (rfl : instrOf 0x8E b1 b2 = some (.stxAbs (word b2 b1))), rfl⟩⟩
theorem saxAbs (addr : Addr) : Statement (.saxAbs addr) :=
  ⟨rfl, rfl, (rfl : lengthOf 0x8F = 3),
    fun b1 b2 => ⟨.saxAbs (word b2 b1), (rfl : instrOf 0x8F b1 b2 = some (.saxAbs (word b2 b1))), rfl⟩⟩
theorem bcc (off : Int) : Statement (.bcc off) :=
  ⟨rfl, rfl, (rfl : lengthOf 0x90 = 2),
    fun b1 b2 => ⟨.bcc b1.toInt, (rfl : instrOf 0x90 b1 b2 = some (.bcc b1.toInt)), rfl⟩⟩
theorem staIndY (zp : Byte) : Statement (.staIndY zp) :=
  ⟨rfl, rfl, (rfl : lengthOf 0x91 = 2),
    fun b1 b2 => ⟨.staIndY b1, (rfl : instrOf 0x91 b1 b2 = some (.staIndY b1)), rfl⟩⟩
theorem styZpX (zp : Byte) : Statement (.styZpX zp) :=
  ⟨rfl, rfl, (rfl : lengthOf 0x94 = 2),
    fun b1 b2 => ⟨.styZpX b1, (rfl : instrOf 0x94 b1 b2 = some (.styZpX b1)), rfl⟩⟩
theorem staZpX (zp : Byte) : Statement (.staZpX zp) :=
  ⟨rfl, rfl, (rfl : lengthOf 0x95 = 2),
    fun b1 b2 => ⟨.staZpX b1, (rfl : instrOf 0x95 b1 b2 = some (.staZpX b1)), rfl⟩⟩
theorem stxZpY (zp : Byte) : Statement (.stxZpY zp) :=
  ⟨rfl, rfl, (rfl : lengthOf 0x96 = 2),
    fun b1 b2 => ⟨.stxZpY b1, (rfl : instrOf 0x96 b1 b2 = some (.stxZpY b1)), rfl⟩⟩
theorem saxZpY (zp : Byte) : Statement (.saxZpY zp) :=
  ⟨rfl, rfl, (rfl : lengthOf 0x97 = 2),
    fun b1 b2 => ⟨.saxZpY b1, (rfl : instrOf 0x97 b1 b2 = some (.saxZpY b1)), rfl⟩⟩
theorem tya : Statement .tya :=
  ⟨rfl, rfl, (rfl : lengthOf 0x98 = 1),
    fun b1 b2 => ⟨.tya, (rfl : instrOf 0x98 b1 b2 = some (.tya)), rfl⟩⟩
theorem staAbsY (addr : Addr) : Statement (.staAbsY addr) :=
  ⟨rfl, rfl, (rfl : lengthOf 0x99 = 3),
    fun b1 b2 => ⟨.staAbsY (word b2 b1), (rfl : instrOf 0x99 b1 b2 = some (.staAbsY (word b2 b1))), rfl⟩⟩
theorem txs : Statement .txs :=
  ⟨rfl, rfl, (rfl : lengthOf 0x9A = 1),
    fun b1 b2 => ⟨.txs, (rfl : instrOf 0x9A b1 b2 = some (.txs)), rfl⟩⟩
theorem staAbsX (addr : Addr) : Statement (.staAbsX addr) :=
  ⟨rfl, rfl, (rfl : lengthOf 0x9D = 3),
    fun b1 b2 => ⟨.staAbsX (word b2 b1), (rfl : instrOf 0x9D b1 b2 = some (.staAbsX (word b2 b1))), rfl⟩⟩
theorem ldyImm (imm : Byte) : Statement (.ldyImm imm) :=
  ⟨rfl, rfl, (rfl : lengthOf 0xA0 = 2),
    fun b1 b2 => ⟨.ldyImm b1, (rfl : instrOf 0xA0 b1 b2 = some (.ldyImm b1)), rfl⟩⟩
theorem ldaIndX (zp : Byte) : Statement (.ldaIndX zp) :=
  ⟨rfl, rfl, (rfl : lengthOf 0xA1 = 2),
    fun b1 b2 => ⟨.ldaIndX b1, (rfl : instrOf 0xA1 b1 b2 = some (.ldaIndX b1)), rfl⟩⟩
theorem ldxImm (imm : Byte) : Statement (.ldxImm imm) :=
  ⟨rfl, rfl, (rfl : lengthOf 0xA2 = 2),
    fun b1 b2 => ⟨.ldxImm b1, (rfl : instrOf 0xA2 b1 b2 = some (.ldxImm b1)), rfl⟩⟩
theorem laxIndX (zp : Byte) : Statement (.laxIndX zp) :=
  ⟨rfl, rfl, (rfl : lengthOf 0xA3 = 2),
    fun b1 b2 => ⟨.laxIndX b1, (rfl : instrOf 0xA3 b1 b2 = some (.laxIndX b1)), rfl⟩⟩
theorem ldyZp (zp : Byte) : Statement (.ldyZp zp) :=
  ⟨rfl, rfl, (rfl : lengthOf 0xA4 = 2),
    fun b1 b2 => ⟨.ldyZp b1, (rfl : instrOf 0xA4 b1 b2 = some (.ldyZp b1)), rfl⟩⟩
theorem ldaZp (zp : Byte) : Statement (.ldaZp zp) :=
  ⟨rfl, rfl, (rfl : lengthOf 0xA5 = 2),
    fun b1 b2 => ⟨.ldaZp b1, (rfl : instrOf 0xA5 b1 b2 = some (.ldaZp b1)), rfl⟩⟩
theorem ldxZp (zp : Byte) : Statement (.ldxZp zp) :=
  ⟨rfl, rfl, (rfl : lengthOf 0xA6 = 2),
    fun b1 b2 => ⟨.ldxZp b1, (rfl : instrOf 0xA6 b1 b2 = some (.ldxZp b1)), rfl⟩⟩
theorem laxZp (zp : Byte) : Statement (.laxZp zp) :=
  ⟨rfl, rfl, (rfl : lengthOf 0xA7 = 2),
    fun b1 b2 => ⟨.laxZp b1, (rfl : instrOf 0xA7 b1 b2 = some (.laxZp b1)), rfl⟩⟩
theorem tay : Statement .tay :=
  ⟨rfl, rfl, (rfl : lengthOf 0xA8 = 1),
    fun b1 b2 => ⟨.tay, (rfl : instrOf 0xA8 b1 b2 = some (.tay)), rfl⟩⟩
theorem ldaImm (imm : Byte) : Statement (.ldaImm imm) :=
  ⟨rfl, rfl, (rfl : lengthOf 0xA9 = 2),
    fun b1 b2 => ⟨.ldaImm b1, (rfl : instrOf 0xA9 b1 b2 = some (.ldaImm b1)), rfl⟩⟩
theorem tax : Statement .tax :=
  ⟨rfl, rfl, (rfl : lengthOf 0xAA = 1),
    fun b1 b2 => ⟨.tax, (rfl : instrOf 0xAA b1 b2 = some (.tax)), rfl⟩⟩
theorem ldyAbs (addr : Addr) : Statement (.ldyAbs addr) :=
  ⟨rfl, rfl, (rfl : lengthOf 0xAC = 3),
    fun b1 b2 => ⟨.ldyAbs (word b2 b1), (rfl : instrOf 0xAC b1 b2 = some (.ldyAbs (word b2 b1))), rfl⟩⟩
theorem ldaAbs (addr : Addr) : Statement (.ldaAbs addr) :=
  ⟨rfl, rfl, (rfl : lengthOf 0xAD = 3),
    fun b1 b2 => ⟨.ldaAbs (word b2 b1), (rfl : instrOf 0xAD b1 b2 = some (.ldaAbs (word b2 b1))), rfl⟩⟩
theorem ldxAbs (addr : Addr) : Statement (.ldxAbs addr) :=
  ⟨rfl, rfl, (rfl : lengthOf 0xAE = 3),
    fun b1 b2 => ⟨.ldxAbs (word b2 b1), (rfl : instrOf 0xAE b1 b2 = some (.ldxAbs (word b2 b1))), rfl⟩⟩
theorem laxAbs (addr : Addr) : Statement (.laxAbs addr) :=
  ⟨rfl, rfl, (rfl : lengthOf 0xAF = 3),
    fun b1 b2 => ⟨.laxAbs (word b2 b1), (rfl : instrOf 0xAF b1 b2 = some (.laxAbs (word b2 b1))), rfl⟩⟩
theorem bcs (off : Int) : Statement (.bcs off) :=
  ⟨rfl, rfl, (rfl : lengthOf 0xB0 = 2),
    fun b1 b2 => ⟨.bcs b1.toInt, (rfl : instrOf 0xB0 b1 b2 = some (.bcs b1.toInt)), rfl⟩⟩
theorem ldaIndY (zp : Byte) : Statement (.ldaIndY zp) :=
  ⟨rfl, rfl, (rfl : lengthOf 0xB1 = 2),
    fun b1 b2 => ⟨.ldaIndY b1, (rfl : instrOf 0xB1 b1 b2 = some (.ldaIndY b1)), rfl⟩⟩
theorem laxIndY (zp : Byte) : Statement (.laxIndY zp) :=
  ⟨rfl, rfl, (rfl : lengthOf 0xB3 = 2),
    fun b1 b2 => ⟨.laxIndY b1, (rfl : instrOf 0xB3 b1 b2 = some (.laxIndY b1)), rfl⟩⟩
theorem ldyZpX (zp : Byte) : Statement (.ldyZpX zp) :=
  ⟨rfl, rfl, (rfl : lengthOf 0xB4 = 2),
    fun b1 b2 => ⟨.ldyZpX b1, (rfl : instrOf 0xB4 b1 b2 = some (.ldyZpX b1)), rfl⟩⟩
theorem ldaZpX (zp : Byte) : Statement (.ldaZpX zp) :=
  ⟨rfl, rfl, (rfl : lengthOf 0xB5 = 2),
    fun b1 b2 => ⟨.ldaZpX b1, (rfl : instrOf 0xB5 b1 b2 = some (.ldaZpX b1)), rfl⟩⟩
theorem ldxZpY (zp : Byte) : Statement (.ldxZpY zp) :=
  ⟨rfl, rfl, (rfl : lengthOf 0xB6 = 2),
    fun b1 b2 => ⟨.ldxZpY b1, (rfl : instrOf 0xB6 b1 b2 = some (.ldxZpY b1)), rfl⟩⟩
theorem laxZpY (zp : Byte) : Statement (.laxZpY zp) :=
  ⟨rfl, rfl, (rfl : lengthOf 0xB7 = 2),
    fun b1 b2 => ⟨.laxZpY b1, (rfl : instrOf 0xB7 b1 b2 = some (.laxZpY b1)), rfl⟩⟩
theorem clv : Statement .clv :=
  ⟨rfl, rfl, (rfl : lengthOf 0xB8 = 1),
    fun b1 b2 => ⟨.clv, (rfl : instrOf 0xB8 b1 b2 = some (.clv)), rfl⟩⟩
theorem ldaAbsY (addr : Addr) : Statement (.ldaAbsY addr) :=
  ⟨rfl, rfl, (rfl : lengthOf 0xB9 = 3),
    fun b1 b2 => ⟨.ldaAbsY (word b2 b1), (rfl : instrOf 0xB9 b1 b2 = some (.ldaAbsY (word b2 b1))), rfl⟩⟩
theorem tsx : Statement .tsx :=
  ⟨rfl, rfl, (rfl : lengthOf 0xBA = 1),
    fun b1 b2 => ⟨.tsx, (rfl : instrOf 0xBA b1 b2 = some (.tsx)), rfl⟩⟩
theorem ldyAbsX (addr : Addr) : Statement (.ldyAbsX addr) :=
  ⟨rfl, rfl, (rfl : lengthOf 0xBC = 3),
    fun b1 b2 => ⟨.ldyAbsX (word b2 b1), (rfl : instrOf 0xBC b1 b2 = some (.ldyAbsX (word b2 b1))), rfl⟩⟩
theorem ldaAbsX (addr : Addr) : Statement (.ldaAbsX addr) :=
  ⟨rfl, rfl, (rfl : lengthOf 0xBD = 3),
    fun b1 b2 => ⟨.ldaAbsX (word b2 b1), (rfl : instrOf 0xBD b1 b2 = some (.ldaAbsX (word b2 b1))), rfl⟩⟩
theorem ldxAbsY (addr : Addr) : Statement (.ldxAbsY addr) :=
  ⟨rfl, rfl, (rfl : lengthOf 0xBE = 3),
    fun b1 b2 => ⟨.ldxAbsY (word b2 b1), (rfl : instrOf 0xBE b1 b2 = some (.ldxAbsY (word b2 b1))), rfl⟩⟩
theorem laxAbsY (addr : Addr) : Statement (.laxAbsY addr) :=
  ⟨rfl, rfl, (rfl : lengthOf 0xBF = 3),
    fun b1 b2 => ⟨.laxAbsY (word b2 b1), (rfl : instrOf 0xBF b1 b2 = some (.laxAbsY (word b2 b1))), rfl⟩⟩
theorem cpyImm (imm : Byte) : Statement (.cpyImm imm) :=
  ⟨rfl, rfl, (rfl : lengthOf 0xC0 = 2),
    fun b1 b2 => ⟨.cpyImm b1, (rfl : instrOf 0xC0 b1 b2 = some (.cpyImm b1)), rfl⟩⟩
theorem cmpIndX (zp : Byte) : Statement (.cmpIndX zp) :=
  ⟨rfl, rfl, (rfl : lengthOf 0xC1 = 2),
    fun b1 b2 => ⟨.cmpIndX b1, (rfl : instrOf 0xC1 b1 b2 = some (.cmpIndX b1)), rfl⟩⟩
theorem dcmIndX (zp : Byte) : Statement (.dcmIndX zp) :=
  ⟨rfl, rfl, (rfl : lengthOf 0xC3 = 2),
    fun b1 b2 => ⟨.dcmIndX b1, (rfl : instrOf 0xC3 b1 b2 = some (.dcmIndX b1)), rfl⟩⟩
theorem cpyZp (zp : Byte) : Statement (.cpyZp zp) :=
  ⟨rfl, rfl, (rfl : lengthOf 0xC4 = 2),
    fun b1 b2 => ⟨.cpyZp b1, (rfl : instrOf 0xC4 b1 b2 = some (.cpyZp b1)), rfl⟩⟩
theorem cmpZp (zp : Byte) : Statement (.cmpZp zp) :=
  ⟨rfl, rfl, (rfl : lengthOf 0xC5 = 2),
    fun b1 b2 => ⟨.cmpZp b1, (rfl : instrOf 0xC5 b1 b2 = some (.cmpZp b1)), rfl⟩⟩
theorem decZp (zp : Byte) : Statement (.decZp zp) :=
  ⟨rfl, rfl, (rfl : lengthOf 0xC6 = 2),
    fun b1 b2 => ⟨.decZp b1, (rfl : instrOf 0xC6 b1 b2 = some (.decZp b1)), rfl⟩⟩
theorem dcmZp (zp : Byte) : Statement (.dcmZp zp) :=
  ⟨rfl, rfl, (rfl : lengthOf 0xC7 = 2),
    fun b1 b2 => ⟨.dcmZp b1, (rfl : instrOf 0xC7 b1 b2 = some (.dcmZp b1)), rfl⟩⟩
theorem iny : Statement .iny :=
  ⟨rfl, rfl, (rfl : lengthOf 0xC8 = 1),
    fun b1 b2 => ⟨.iny, (rfl : instrOf 0xC8 b1 b2 = some (.iny)), rfl⟩⟩
theorem cmpImm (imm : Byte) : Statement (.cmpImm imm) :=
  ⟨rfl, rfl, (rfl : lengthOf 0xC9 = 2),
    fun b1 b2 => ⟨.cmpImm b1, (rfl : instrOf 0xC9 b1 b2 = some (.cmpImm b1)), rfl⟩⟩
theorem dex : Statement .dex :=
  ⟨rfl, rfl, (rfl : lengthOf 0xCA = 1),
    fun b1 b2 => ⟨.dex, (rfl : instrOf 0xCA b1 b2 = some (.dex)), rfl⟩⟩
theorem cpyAbs (addr : Addr) : Statement (.cpyAbs addr) :=
  ⟨rfl, rfl, (rfl : lengthOf 0xCC = 3),
    fun b1 b2 => ⟨.cpyAbs (word b2 b1), (rfl : instrOf 0xCC b1 b2 = some (.cpyAbs (word b2 b1))), rfl⟩⟩
theorem cmpAbs (addr : Addr) : Statement (.cmpAbs addr) :=
  ⟨rfl, rfl, (rfl : lengthOf 0xCD = 3),
    fun b1 b2 => ⟨.cmpAbs (word b2 b1), (rfl : instrOf 0xCD b1 b2 = some (.cmpAbs (word b2 b1))), rfl⟩⟩
theorem decAbs (addr : Addr) : Statement (.decAbs addr) :=
  ⟨rfl, rfl, (rfl : lengthOf 0xCE = 3),
    fun b1 b2 => ⟨.decAbs (word b2 b1), (rfl : instrOf 0xCE b1 b2 = some (.decAbs (word b2 b1))), rfl⟩⟩
theorem dcmAbs (addr : Addr) : Statement (.dcmAbs addr) :=
  ⟨rfl, rfl, (rfl : lengthOf 0xCF = 3),
    fun b1 b2 => ⟨.dcmAbs (word b2 b1), (rfl : instrOf 0xCF b1 b2 = some (.dcmAbs (word b2 b1))), rfl⟩⟩
theorem bne (off : Int) : Statement (.bne off) :=
  ⟨rfl, rfl, (rfl : lengthOf 0xD0 = 2),
    fun b1 b2 => ⟨.bne b1.toInt, (rfl : instrOf 0xD0 b1 b2 = some (.bne b1.toInt)), rfl⟩⟩
theorem cmpIndY (zp : Byte) : Statement (.cmpIndY zp) :=
  ⟨rfl, rfl, (rfl : lengthOf 0xD1 = 2),
    fun b1 b2 => ⟨.cmpIndY b1, (rfl : instrOf 0xD1 b1 b2 = some (.cmpIndY b1)), rfl⟩⟩
theorem dcmIndY (zp : Byte) : Statement (.dcmIndY zp) :=
  ⟨rfl, rfl, (rfl : lengthOf 0xD3 = 2),
    fun b1 b2 => ⟨.dcmIndY b1, (rfl : instrOf 0xD3 b1 b2 = some (.dcmIndY b1)), rfl⟩⟩
theorem nopD4 (zp : Byte) : Statement (.nopD4 zp) :=
  ⟨rfl, rfl, (rfl : lengthOf 0xD4 = 2),
    fun b1 b2 => ⟨.nopD4 b1, (rfl : instrOf 0xD4 b1 b2 = some (.nopD4 b1)), rfl⟩⟩
theorem cmpZpX (zp : Byte) : Statement (.cmpZpX zp) :=
  ⟨rfl, rfl, (rfl : lengthOf 0xD5 = 2),
    fun b1 b2 => ⟨.cmpZpX b1, (rfl : instrOf 0xD5 b1 b2 = some (.cmpZpX b1)), rfl⟩⟩
theorem decZpX (zp : Byte) : Statement (.decZpX zp) :=
  ⟨rfl, rfl, (rfl : lengthOf 0xD6 = 2),
    fun b1 b2 => ⟨.decZpX b1, (rfl : instrOf 0xD6 b1 b2 = some (.decZpX b1)), rfl⟩⟩
theorem dcmZpX (zp : Byte) : Statement (.dcmZpX zp) :=
  ⟨rfl, rfl, (rfl : lengthOf 0xD7 = 2),
    fun b1 b2 => ⟨.dcmZpX b1, (rfl : instrOf 0xD7 b1 b2 = some (.dcmZpX b1)), rfl⟩⟩
theorem cld : Statement .cld :=
  ⟨rfl, rfl, (rfl : lengthOf 0xD8 = 1),
    fun b1 b2 => ⟨.cld, (rfl : instrOf 0xD8 b1 b2 = some (.cld)), rfl⟩⟩
theorem cmpAbsY (addr : Addr) : Statement (.cmpAbsY addr) :=
  ⟨rfl, rfl, (rfl : lengthOf 0xD9 = 3),
    fun b1 b2 => ⟨.cmpAbsY (word b2 b1), (rfl : instrOf 0xD9 b1 b2 = some (.cmpAbsY (word b2 b1))), rfl⟩⟩
theorem nopDA : Statement .nopDA :=
  ⟨rfl, rfl, (rfl : lengthOf 0xDA = 1),
    fun b1 b2 => ⟨.nopDA, (rfl : instrOf 0xDA b1 b2 = some (.nopDA)), rfl⟩⟩
theorem dcmAbsY (addr : Addr) : Statement (.dcmAbsY addr) :=
  ⟨rfl, rfl, (rfl : lengthOf 0xDB = 3),
    fun b1 b2 => ⟨.dcmAbsY (word b2 b1), (rfl : instrOf 0xDB b1 b2 = some (.dcmAbsY (word b2 b1))), rfl⟩⟩
theorem nopDC (addr : Addr) : Statement (.nopDC addr) :=
  ⟨rfl, rfl, (rfl : lengthOf 0xDC = 3),
    fun b1 b2 => ⟨.nopDC (word b2 b1), (rfl : instrOf 0xDC b1 b2 = some (.nopDC (word b2 b1))), rfl⟩⟩
theorem cmpAbsX (addr : Addr) : Statement (.cmpAbsX addr) :=
  ⟨rfl, rfl, (rfl : lengthOf 0xDD = 3),
    fun b1 b2 => ⟨.cmpAbsX (word b2 b1), (rfl : instrOf 0xDD b1 b2 = some (.cmpAbsX (word b2 b1))), rfl⟩⟩
theorem decAbsX (addr : Addr) : Statement (.decAbsX addr) :=
  ⟨rfl, rfl, (rfl : lengthOf 0xDE = 3),
    fun b1 b2 => ⟨.decAbsX (word b2 b1), (rfl : instrOf 0xDE b1 b2 = some (.decAbsX (word b2 b1))), rfl⟩⟩
theorem dcmAbsX (addr : Addr) : Statement (.dcmAbsX addr) :=
  ⟨rfl, rfl, (rfl : lengthOf 0xDF = 3),
    fun b1 b2 => ⟨.dcmAbsX (word b2 b1), (rfl : instrOf 0xDF b1 b2 = some (.dcmAbsX (word b2 b1))), rfl⟩⟩
theorem cpxImm (imm : Byte) : Statement (.cpxImm imm) :=
  ⟨rfl, rfl, (rfl : lengthOf 0xE0 = 2),
    fun b1 b2 => ⟨.cpxImm b1, (rfl : instrOf 0xE0 b1 b2 = some (.cpxImm b1)), rfl⟩⟩
theorem sbcIndX (zp : Byte) : Statement (.sbcIndX zp) :=
  ⟨rfl, rfl, (rfl : lengthOf 0xE1 = 2),
    fun b1 b2 => ⟨.sbcIndX b1, (rfl : instrOf 0xE1 b1 b2 = some (.sbcIndX b1)), rfl⟩⟩
theorem isbIndX (zp : Byte) : Statement (.isbIndX zp) :=
  ⟨rfl, rfl, (rfl : lengthOf 0xE3 = 2),
    fun b1 b2 => ⟨.isbIndX b1, (rfl : instrOf 0xE3 b1 b2 = some (.isbIndX b1)), rfl⟩⟩
theorem cpxZp (zp : Byte) : Statement (.cpxZp zp) :=
  ⟨rfl, rfl, (rfl : lengthOf 0xE4 = 2),
    fun b1 b2 => ⟨.cpxZp b1, (rfl : instrOf 0xE4 b1 b2 = some (.cpxZp b1)), rfl⟩⟩
theorem sbcZp (zp : Byte) : Statement (.sbcZp zp) :=
  ⟨rfl, rfl, (rfl : lengthOf 0xE5 = 2),
    fun b1 b2 => ⟨.sbcZp b1, (rfl : instrOf 0xE5 b1 b2 = some (.sbcZp b1)), rfl⟩⟩
theorem incZp (zp : Byte) : Statement (.incZp zp) :=
  ⟨rfl, rfl, (rfl : lengthOf 0xE6 = 2),
    fun b1 b2 => ⟨.incZp b1, (rfl : instrOf 0xE6 b1 b2 = some (.incZp b1)), rfl⟩⟩
theorem isbZp (zp : Byte) : Statement (.isbZp zp) :=
  ⟨rfl, rfl, (rfl : lengthOf 0xE7 = 2),
    fun b1 b2 => ⟨.isbZp b1, (rfl : instrOf 0xE7 b1 b2 = some (.isbZp b1)), rfl⟩⟩
theorem inx : Statement .inx :=
  ⟨rfl, rfl, (rfl : lengthOf 0xE8 = 1),
    fun b1 b2 => ⟨.inx, (rfl : instrOf 0xE8 b1 b2 = some (.inx)), rfl⟩⟩
theorem sbcImm (imm : Byte) : Statement (.sbcImm imm) :=
  ⟨rfl, rfl, (rfl : lengthOf 0xE9 = 2),
    fun b1 b2 => ⟨.sbcImm b1, (rfl : instrOf 0xE9 b1 b2 = some (.sbcImm b1)), rfl⟩⟩
theorem nop : Statement .nop :=
  ⟨rfl, rfl, (rfl : lengthOf 0xEA = 1),
    fun b1 b2 => ⟨.nop, (rfl : instrOf 0xEA b1 b2 = some (.nop)), rfl⟩⟩
theorem sbcImmEB (imm : Byte) : Statement (.sbcImmEB imm) :=
  ⟨rfl, rfl, (rfl : lengthOf 0xEB = 2),
    fun b1 b2 => ⟨.sbcImmEB b1, (rfl : instrOf 0xEB b1 b2 = some (.sbcImmEB b1)), rfl⟩⟩
theorem cpxAbs (addr : Addr) : Statement (.cpxAbs addr) :=
  ⟨rfl, rfl, (rfl : lengthOf 0xEC = 3),
    fun b1 b2 => ⟨.cpxAbs (word b2 b1), (rfl : instrOf 0xEC b1 b2 = some (.cpxAbs (word b2 b1))), rfl⟩⟩
theorem sbcAbs (addr : Addr) : Statement (.sbcAbs addr) :=
  ⟨rfl, rfl, (rfl : lengthOf 0xED = 3),
    fun b1 b2 => ⟨.sbcAbs (word b2 b1), (rfl : instrOf 0xED b1 b2 = some (.sbcAbs (word b2 b1))), rfl⟩⟩
theorem incAbs (addr : Addr) : Statement (.incAbs addr) :=
  ⟨rfl, rfl, (rfl : lengthOf 0xEE = 3),
    fun b1 b2 => ⟨.incAbs (word b2 b1), (rfl : instrOf 0xEE b1 b2 = some (.incAbs (word b2 b1))), rfl⟩⟩
theorem isbAbs (addr : Addr) : Statement (.isbAbs addr) :=
  ⟨rfl, rfl, (rfl : lengthOf 0xEF = 3),
    fun b1 b2 => ⟨.isbAbs (word b2 b1), (rfl : instrOf 0xEF b1 b2 = some (.isbAbs (word b2 b1))), rfl⟩⟩
theorem beq (off : Int) : Statement (.beq off) :=
  ⟨rfl, rfl, (rfl : lengthOf 0xF0 = 2),
    fun b1 b2 => ⟨.beq b1.toInt, (rfl : instrOf 0xF0 b1 b2 = some (.beq b1.toInt)), rfl⟩⟩
theorem sbcIndY (zp : Byte) : Statement (.sbcIndY zp) :=
  ⟨rfl, rfl, (rfl : lengthOf 0xF1 = 2),
    fun b1 b2 => ⟨.sbcIndY b1, (rfl : instrOf 0xF1 b1 b2 = some (.sbcIndY b1)), rfl⟩⟩
theorem isbIndY (zp : Byte) : Statement (.isbIndY zp) :=
  ⟨rfl, rfl, (rfl : lengthOf 0xF3 = 2),
    fun b1 b2 => ⟨.isbIndY b1, (rfl : instrOf 0xF3 b1 b2 = some (.isbIndY b1)), rfl⟩⟩
theorem nopF4 (zp : Byte) : Statement (.nopF4 zp) :=
  ⟨rfl, rfl, (rfl : lengthOf 0xF4 = 2),
    fun b1 b2 => ⟨.nopF4 b1, (rfl : instrOf 0xF4 b1 b2 = some (.nopF4 b1)), rfl⟩⟩
theorem sbcZpX (zp : Byte) : Statement (.sbcZpX zp) :=
  ⟨rfl, rfl, (rfl : lengthOf 0xF5 = 2),
    fun b1 b2 => ⟨.sbcZpX b1, (rfl : instrOf 0xF5 b1 b2 = some (.sbcZpX b1)), rfl⟩⟩
theorem incZpX (zp : Byte) : Statement (.incZpX zp) :=
  ⟨rfl, rfl, (rfl : lengthOf 0xF6 = 2),
    fun b1 b2 => ⟨.incZpX b1, (rfl : instrOf 0xF6 b1 b2 = some (.incZpX b1)), rfl⟩⟩
theorem isbZpX (zp : Byte) : Statement (.isbZpX zp) :=
  ⟨rfl, rfl, (rfl : lengthOf 0xF7 = 2),
    fun b1 b2 => ⟨.isbZpX b1, (rfl : instrOf 0xF7 b1 b2 = some (.isbZpX b1)), rfl⟩⟩
theorem sed : Statement .sed :=
  ⟨rfl, rfl, (rfl : lengthOf 0xF8 = 1),
    fun b1 b2 => ⟨.sed, (rfl : instrOf 0xF8 b1 b2 = some (.sed)), rfl⟩⟩
theorem sbcAbsY (addr : Addr) : Statement (.sbcAbsY addr) :=
  ⟨rfl, rfl, (rfl : lengthOf 0xF9 = 3),
    fun b1 b2 => ⟨.sbcAbsY (word b2 b1), (rfl : instrOf 0xF9 b1 b2 = some (.sbcAbsY (word b2 b1))), rfl⟩⟩
theorem nopFA : Statement .nopFA :=
  ⟨rfl, rfl, (rfl : lengthOf 0xFA = 1),
    fun b1 b2 => ⟨.nopFA, (rfl : instrOf 0xFA b1 b2 = some (.nopFA)), rfl⟩⟩
theorem isbAbsY (addr : Addr) : Statement (.isbAbsY addr) :=
  ⟨rfl, rfl, (rfl : lengthOf 0xFB = 3),
    fun b1 b2 => ⟨.isbAbsY (word b2 b1), (rfl : instrOf 0xFB b1 b2 = some (.isbAbsY (word b2 b1))), rfl⟩⟩
theorem nopFC (addr : Addr) : Statement (.nopFC addr) :=
  ⟨rfl, rfl, (rfl : lengthOf 0xFC = 3),
    fun b1 b2 => ⟨.nopFC (word b2 b1), (rfl : instrOf 0xFC b1 b2 = some (.nopFC (word b2 b1))), rfl⟩⟩
theorem sbcAbsX (addr : Addr) : Statement (.sbcAbsX addr) :=
  ⟨rfl, rfl, (rfl : lengthOf 0xFD = 3),
    fun b1 b2 => ⟨.sbcAbsX (word b2 b1), (rfl : instrOf 0xFD b1 b2 = some (.sbcAbsX (word b2 b1))), rfl⟩⟩
theorem incAbsX (addr : Addr) : Statement (.incAbsX addr) :=
  ⟨rfl, rfl, (rfl : lengthOf 0xFE = 3),
    fun b1 b2 => ⟨.incAbsX (word b2 b1), (rfl : instrOf 0xFE b1 b2 = some (.incAbsX (word b2 b1))), rfl⟩⟩
theorem isbAbsX (addr : Addr) : Statement (.isbAbsX addr) :=
  ⟨rfl, rfl, (rfl : lengthOf 0xFF = 3),
    fun b1 b2 => ⟨.isbAbsX (word b2 b1), (rfl : instrOf 0xFF b1 b2 = some (.isbAbsX (word b2 b1))), rfl⟩⟩

end Sys2Proof.Laws.EncodeForm
end

