-- ==== Sys2Proof/Laws/PpuDot.lean ====
section
/-! SUPPORT. What one dot can do, said once (spec/48_ppu_dot_machine.md R350 to R354). -/

namespace Sys2Proof.Machine

/-- `t` is `s` but for what the events of a dot may change: `v`, the status, the shifters, the staging bytes, the frame
buffer, and the interrupt slot, which an NMI may take. The position moves only in `Advance()`. -/
def DotEffects (s t : State) : Prop :=
  t = (s.setPpu { s.ppu with
    v := t.ppu.v, status := t.ppu.status, patLo := t.ppu.patLo, patHi := t.ppu.patHi, attrLo := t.ppu.attrLo
    attrHi := t.ppu.attrHi, nextTileId := t.ppu.nextTileId, nextTileAttr := t.ppu.nextTileAttr
    nextTileLsb := t.ppu.nextTileLsb, nextTileMsb := t.ppu.nextTileMsb
    framebuffer := t.ppu.framebuffer }).setPending t.cpu.pending ∧
  (t.cpu.pending = s.cpu.pending ∨ t.cpu.pending = some .nmi)

theorem DotEffects.rfl' (s : State) : DotEffects s s := ⟨rfl, .inl rfl⟩

theorem DotEffects.trans {s t u : State} (h : DotEffects s t) (h' : DotEffects t u) : DotEffects s u := by
  obtain ⟨h1, h2⟩ := h
  obtain ⟨h1', h2'⟩ := h'
  refine ⟨?_, ?_⟩
  · rw [h1']; conv_lhs => rw [h1]
    rfl
  · rcases h2' with h | h
    · rw [h]; exact h2
    · exact .inr h

theorem flagEvents_effects (sl d : Nat) (s : State) : DotEffects s (flagEvents sl d s) := by
  have h1 (s : State) : DotEffects s (clearFlags s) := ⟨rfl, .inl rfl⟩
  have h2 (s : State) : DotEffects s (startVblank s) := by
    unfold startVblank
    dsimp only
    split
    · exact ⟨rfl, .inr rfl⟩
    · exact ⟨rfl, .inl rfl⟩
  unfold flagEvents
  dsimp only
  split <;> split
  · exact (h1 s).trans (h2 _)
  · exact h2 s
  · exact h1 s
  · exact .rfl' s

theorem pixelEvent_effects (sl d : Nat) (s : State) : DotEffects s (pixelEvent sl d s) := by
  unfold pixelEvent
  split
  · exact ⟨rfl, .inl rfl⟩
  · exact .rfl' s

theorem fetchStep_effects (k : Nat) (s : State) : DotEffects s (fetchStep k s) := by
  unfold fetchStep
  split <;> exact ⟨rfl, .inl rfl⟩

theorem fetchEvent_effects (d : Nat) (s : State) : DotEffects s (fetchEvent d s) := by
  unfold fetchEvent
  split
  · exact DotEffects.trans ⟨rfl, .inl rfl⟩ (fetchStep_effects _ (s.setPpu (shiftShifters s.ppu)))
  · exact .rfl' s

/-- The scroll updates change only `v`, and raise nothing. -/
theorem scrollEvents_eq (sl d : Nat) (s : State) : ∃ v, scrollEvents sl d s = s.setPpu { s.ppu with v := v } := by
  unfold scrollEvents
  dsimp only
  split <;> split <;> split <;> exact ⟨_, rfl⟩

/-- The four dots or ranges at which `v` is updated, said once: they exclude each other. -/
theorem scrollEvents_v (sl d : Nat) (s : State) : (scrollEvents sl d s).ppu.v =
    if d = 256 then (if scrollLine sl s then incY s.ppu.v else s.ppu.v)
    else if d = 257 then (if scrollLine sl s then copyX s.ppu else s.ppu.v)
    else if sl = 261 ∧ 280 ≤ d ∧ d ≤ 304 then copyY s.ppu else s.ppu.v := by
  have h280 (h : d = 256 ∨ d = 257) : (prerenderLine sl && decide (280 ≤ d) && decide (d ≤ 304)) = false := by
    rcases h with rfl | rfl <;> simp
  unfold scrollEvents
  dsimp only
  by_cases h1 : d = 256
  · rw [h280 (.inl h1), if_pos h1]
    subst h1
    cases scrollLine sl s <;> simp
  · by_cases h2 : d = 257
    · rw [h280 (.inr h2), if_neg h1, if_pos h2]
      subst h2
      cases h : scrollLine sl s <;> simp [h]
    · rw [if_neg h1, if_neg h2, decide_eq_false h1, decide_eq_false h2]
      by_cases h3 : sl = 261 ∧ 280 ≤ d ∧ d ≤ 304
      · rw [if_pos h3]
        simp [prerenderLine, h3]
      · rw [if_neg h3]
        have : (prerenderLine sl && decide (280 ≤ d) && decide (d ≤ 304)) = false := by
          simp only [prerenderLine, ← Bool.decide_and, and_assoc]
          exact decide_eq_false h3
        simp [this]

theorem scrollEvents_effects (sl d : Nat) (s : State) : DotEffects s (scrollEvents sl d s) := by
  obtain ⟨v, h⟩ := scrollEvents_eq sl d s
  rw [h]
  exact ⟨rfl, .inl rfl⟩

theorem renderEvents_effects (rend : Bool) (sl d : Nat) (s : State) : DotEffects s (renderEvents rend sl d s) := by
  unfold renderEvents
  split
  · exact (fetchEvent_effects d s).trans (scrollEvents_effects sl d _)
  · exact .rfl' s

/-- The flag events write the status and the interrupt slot. -/
theorem flagEvents_eq (sl d : Nat) (s : State) : let t := flagEvents sl d s
    t = (s.setPpu { s.ppu with status := t.ppu.status }).setPending t.cpu.pending := by
  unfold flagEvents clearFlags startVblank triggerNmi
  dsimp only
  split
  · split <;> split <;> rfl
  · split <;> rfl

/-- The pixel writes the frame buffer. -/
theorem pixelEvent_eq (sl d : Nat) (s : State) :
    ∃ m, pixelEvent sl d s = s.setPpu { s.ppu with framebuffer := m } := by
  unfold pixelEvent
  split
  · exact ⟨_, rfl⟩
  · exact ⟨s.ppu.framebuffer, rfl⟩

/-- The fetch and the scroll updates leave the status, the frame buffer and the interrupt slot. -/
theorem renderEvents_keeps (rend : Bool) (sl d : Nat) (s : State) : let t := renderEvents rend sl d s
    t.ppu.status = s.ppu.status ∧ t.ppu.framebuffer = s.ppu.framebuffer ∧ t.cpu.pending = s.cpu.pending := by
  have hf (k : Nat) (u : State) : let t := fetchStep k u
      t.ppu.status = u.ppu.status ∧ t.ppu.framebuffer = u.ppu.framebuffer ∧ t.cpu.pending = u.cpu.pending := by
    unfold fetchStep
    dsimp only
    split <;> exact ⟨rfl, rfl, rfl⟩
  have he : let t := fetchEvent d s
      t.ppu.status = s.ppu.status ∧ t.ppu.framebuffer = s.ppu.framebuffer ∧ t.cpu.pending = s.cpu.pending := by
    unfold fetchEvent
    dsimp only
    split
    · exact hf _ _
    · exact ⟨rfl, rfl, rfl⟩
  unfold renderEvents
  dsimp only
  split
  · obtain ⟨v, hv⟩ := scrollEvents_eq sl d (fetchEvent d s)
    rw [hv]
    exact he
  · exact ⟨rfl, rfl, rfl⟩

/-- The status after a dot is that of its flag events. -/
theorem ppuTick_status (s : State) :
    (ppuTick s).ppu.status = (flagEvents s.ppu.scanline s.ppu.dot s).ppu.status := by
  unfold ppuTick
  dsimp only
  rw [State.setPpu_ppu]
  obtain ⟨m, hm⟩ := pixelEvent_eq s.ppu.scanline s.ppu.dot (flagEvents s.ppu.scanline s.ppu.dot s)
  have h := (renderEvents_keeps (rendering s.ppu) s.ppu.scanline s.ppu.dot
    (pixelEvent s.ppu.scanline s.ppu.dot (flagEvents s.ppu.scanline s.ppu.dot s))).1
  have ha (rend : Bool) (u : Ppu) : (advance rend u).status = u.status := by
    unfold advance newFrame; split <;> [rfl; (split <;> [(split <;> rfl); rfl])]
  rw [ha, h, hm]
  rfl

/-- The interrupt slot after a dot is that of its flag events. -/
theorem ppuTick_pending (s : State) :
    (ppuTick s).cpu.pending = (flagEvents s.ppu.scanline s.ppu.dot s).cpu.pending := by
  obtain ⟨m, hm⟩ := pixelEvent_eq s.ppu.scanline s.ppu.dot (flagEvents s.ppu.scanline s.ppu.dot s)
  have h := (renderEvents_keeps (rendering s.ppu) s.ppu.scanline s.ppu.dot
    (pixelEvent s.ppu.scanline s.ppu.dot (flagEvents s.ppu.scanline s.ppu.dot s))).2.2
  refine Eq.trans (Eq.trans rfl h) ?_
  rw [hm]
  rfl

/-- The frame buffer after a dot is that of its pixel. -/
theorem ppuTick_framebuffer (s : State) : (ppuTick s).ppu.framebuffer = (pixelEvent s.ppu.scanline s.ppu.dot s).ppu.framebuffer := by
  unfold ppuTick
  dsimp only
  rw [State.setPpu_ppu]
  have hb := flagEvents_eq s.ppu.scanline s.ppu.dot s
  have h := (renderEvents_keeps (rendering s.ppu) s.ppu.scanline s.ppu.dot
    (pixelEvent s.ppu.scanline s.ppu.dot (flagEvents s.ppu.scanline s.ppu.dot s))).2.1
  have ha (rend : Bool) (u : Ppu) : (advance rend u).framebuffer = u.framebuffer := by
    unfold advance newFrame; split <;> [rfl; (split <;> [(split <;> rfl); rfl])]
  rw [ha, h, hb]
  unfold pixelEvent
  split <;> rfl

/-- The state of a tick before `Advance()`. -/
theorem events_effects (rend : Bool) (sl d : Nat) (s : State) :
    DotEffects s (renderEvents rend sl d (pixelEvent sl d (flagEvents sl d s))) :=
  ((flagEvents_effects sl d s).trans (pixelEvent_effects sl d _)).trans (renderEvents_effects rend sl d _)

/-- A tick is the events of its dot, then the advance of the position. -/
theorem ppuTick_eq (s : State) :
    ∃ t, DotEffects s t ∧ ppuTick s = t.setPpu (advance (rendering s.ppu) t.ppu) :=
  ⟨_, events_effects _ _ _ s, rfl⟩

/-- `Advance()` writes the four fields of the position. -/
theorem advance_eq (rend : Bool) (u : Ppu) :
    advance rend u = { u with
      scanline := (advance rend u).scanline, dot := (advance rend u).dot, frame := (advance rend u).frame
      oddFrame := (advance rend u).oddFrame } := by
  unfold advance newFrame
  split
  · rfl
  · split
    · split <;> rfl
    · rfl

/-- Where `Advance()` goes depends on the position, the parity and the gate alone. -/
theorem advance_congr (rend : Bool) {u v : Ppu} (h1 : u.scanline = v.scanline) (h2 : u.dot = v.dot)
    (h3 : u.frame = v.frame) (h4 : u.oddFrame = v.oddFrame) :
    (advance rend u).scanline = (advance rend v).scanline ∧ (advance rend u).dot = (advance rend v).dot ∧
      (advance rend u).frame = (advance rend v).frame ∧ (advance rend u).oddFrame = (advance rend v).oddFrame := by
  unfold advance newFrame
  rw [h1, h2, h3, h4]
  split
  · exact ⟨rfl, rfl, rfl, rfl⟩
  · split
    · split <;> simp_all
    · simp_all

/-- Everything a dot leaves alone outside the PPU, and the interrupt slot. -/
theorem ppuTick_effects (s : State) :
    ∃ u k, ppuTick s = (s.setPpu u).setPending k ∧ (k = s.cpu.pending ∨ k = some .nmi) := by
  obtain ⟨t, ⟨h1, h2⟩, h3⟩ := ppuTick_eq s
  refine ⟨advance (rendering s.ppu) t.ppu, t.cpu.pending, ?_, h2⟩
  rw [h3]
  conv_lhs => arg 2; rw [h1]
  rfl

/-- The PPU registers and memories that no dot changes. -/
theorem ppuTick_ppu (s : State) : let u := (ppuTick s).ppu
    u.t = s.ppu.t ∧ u.x = s.ppu.x ∧ u.w = s.ppu.w ∧ u.ctrl = s.ppu.ctrl ∧ u.mask = s.ppu.mask ∧
      u.oamAddr = s.ppu.oamAddr ∧ u.bufferData = s.ppu.bufferData ∧ u.vram = s.ppu.vram ∧ u.oam = s.ppu.oam ∧
      u.palette = s.ppu.palette := by
  obtain ⟨t, ⟨h1, -⟩, h3⟩ := ppuTick_eq s
  have ht : t.ppu.t = s.ppu.t ∧ t.ppu.x = s.ppu.x ∧ t.ppu.w = s.ppu.w ∧ t.ppu.ctrl = s.ppu.ctrl ∧
      t.ppu.mask = s.ppu.mask ∧ t.ppu.oamAddr = s.ppu.oamAddr ∧ t.ppu.bufferData = s.ppu.bufferData ∧
      t.ppu.vram = s.ppu.vram ∧ t.ppu.oam = s.ppu.oam ∧ t.ppu.palette = s.ppu.palette := by
    rw [h1]; exact ⟨rfl, rfl, rfl, rfl, rfl, rfl, rfl, rfl, rfl, rfl⟩
  rw [h3, State.setPpu_ppu, advance_eq]
  exact ht

/-- The position after a dot. -/
theorem ppuTick_position (s : State) : let u := (ppuTick s).ppu
    let v := advance (rendering s.ppu) s.ppu
    u.scanline = v.scanline ∧ u.dot = v.dot ∧ u.frame = v.frame ∧ u.oddFrame = v.oddFrame := by
  obtain ⟨t, ⟨h1, -⟩, h3⟩ := ppuTick_eq s
  rw [h3, State.setPpu_ppu]
  apply advance_congr <;> rw [h1] <;> rfl

@[simp] theorem ppuTick_tickCount (s : State) : (ppuTick s).tickCount = s.tickCount := by
  obtain ⟨u, k, h, -⟩ := ppuTick_effects s
  rw [h]
  rfl

@[simp] theorem ppuTick_cfg (s : State) : (ppuTick s).cfg = s.cfg := by
  obtain ⟨u, k, h, -⟩ := ppuTick_effects s
  rw [h]
  rfl

@[simp] theorem ppuTick_fault (s : State) : (ppuTick s).cpu.fault = s.cpu.fault := by
  obtain ⟨u, k, h, -⟩ := ppuTick_effects s
  rw [h]
  rfl

@[simp] theorem ppuTick_cycles (s : State) : (ppuTick s).cpu.cycles = s.cpu.cycles := by
  obtain ⟨u, k, h, -⟩ := ppuTick_effects s
  rw [h]
  rfl

@[simp] theorem ppuTick_pc (s : State) : (ppuTick s).cpu.pc = s.cpu.pc := by
  obtain ⟨u, k, h, -⟩ := ppuTick_effects s
  rw [h]
  rfl

@[simp] theorem ppuTick_p (s : State) : (ppuTick s).cpu.p = s.cpu.p := by
  obtain ⟨u, k, h, -⟩ := ppuTick_effects s
  rw [h]
  rfl

end Sys2Proof.Machine
end

