-- ==== Sys2Proof/Laws/Reset.lean ====
section
/-! SUPPORT. The state after reset is the power-on of the default configuration, and its memories list nothing. -/

namespace Sys2Proof.Machine

/-- `State.reset` is `PowerOn` with the default parameters (spec/70_reset_and_hazards.md R440). -/
theorem reset_eq_powerOn : State.reset = powerOn Config.default := by decide +kernel

/-- Every memory of the state after reset is in canonical form. -/
theorem reset_memories_wf :
    State.reset.ram.wf = true ∧ State.reset.prgRam.wf = true ∧ State.reset.chrRam.wf = true ∧
      State.reset.flatMem.wf = true ∧ State.reset.ppu.vram.wf = true ∧ State.reset.ppu.oam.wf = true ∧
      State.reset.ppu.palette.wf = true ∧ State.reset.ppu.framebuffer.wf = true :=
  ⟨rfl, rfl, rfl, rfl, rfl, rfl, rfl, rfl⟩

end Sys2Proof.Machine
end

