-- ==== Sys2Proof/Laws/Step.lean ====
section
/-! SUPPORT. A step in one equation for each of its shapes (spec/49_bus_clock_dma.md R390, R392). -/

namespace Sys2Proof.Machine

/-- A step with a CPU tick. -/
theorem step_cpuTurn {s : State} (h : cpuTurn s = true) : step s = finishStep s (cpuTick (cpuSees s)) := by
  unfold step machineTick finishStep cpuSees
  unfold cpuTurn at h
  cases hb : s.cfg.bus with
  | flat => rfl
  | system =>
    simp only [hb, decide_eq_true_eq] at h
    simp only [busTick, ppuTick_tickCount]
    rw [if_pos h]

/-- A step without a CPU tick. -/
theorem step_dotOnly {s : State} (h : cpuTurn s = false) : step s = .next (countTick (ppuTick s)) := by
  unfold step machineTick
  unfold cpuTurn at h
  cases hb : s.cfg.bus with
  | flat => simp [hb] at h
  | system =>
    simp only [hb, decide_eq_false_iff_not] at h
    simp only [busTick, ppuTick_tickCount]
    rw [if_neg h]

theorem cpuTick_faulted {s : State} (h : s.cpu.fault ≠ none) : cpuTick s = .next s := by
  unfold cpuTick
  rw [if_pos (Option.isSome_iff_ne_none.2 h)]

theorem cpuTick_inDebt {s : State} (h : s.cpu.fault = none) (hc : 0 < s.cpu.cycles) :
    cpuTick s = .next (s.setCycles (s.cpu.cycles - 1)) := by
  unfold cpuTick
  rw [h, if_neg (by simp), if_pos hc]

theorem cpuTick_entry {s : State} {k : Interrupt} (h : s.cpu.fault = none) (hc : s.cpu.cycles = 0)
    (hk : s.cpu.pending = some k) : cpuTick s = .next (interruptEntry k s) := by
  unfold cpuTick cpuStep
  rw [h, if_neg (by simp), if_neg (by omega), if_neg (by simp), hk]

theorem cpuTick_runs {s : State} (h : s.cpu.fault = none) (hc : s.cpu.cycles = 0) (hk : s.cpu.pending = none) :
    cpuTick s = runInstruction s := by
  unfold cpuTick cpuStep
  rw [h, if_neg (by simp), if_neg (by omega), if_neg (by simp), hk]

/-! ### Runs -/

/-- A run of `n + 1` steps is a step and a run of `n`. -/
theorem run_succ {M : Host.Core} {n : Nat} {s t : M.State} (h : M.step s = .next t) : M.run (n + 1) s = M.run n t := by
  have hs : M.run (n + 1) s = match M.step s with
    | .next u => M.run n u
    | .fault r => .fault r
    | .refused r => .refused r := rfl
  rw [hs, h]

theorem run_zero {M : Host.Core} (s : M.State) : M.run 0 s = .next s := rfl

/-- A run of `m + n` steps is a run of `m`, then one of `n`. -/
theorem run_add {M : Host.Core} {m n : Nat} {s t : M.State} (h : M.run m s = .next t) : M.run (m + n) s = M.run n t := by
  induction m generalizing s with
  | zero => rw [Nat.zero_add]; rw [run_zero] at h; cases h; rfl
  | succ m ih =>
    cases hs : M.step s with
    | next u =>
      rw [run_succ hs] at h
      rw [Nat.add_right_comm, run_succ hs]
      exact ih h
    | fault r => have : M.run (m + 1) s = .fault r := by rw [Host.Core.run.eq_def]; simp only [hs]
                 rw [this] at h; cases h
    | refused r => have : M.run (m + 1) s = .refused r := by rw [Host.Core.run.eq_def]; simp only [hs]
                   rw [this] at h; cases h

end Sys2Proof.Machine
end

