-- ==== Sys2Proof/Machine/Disassemble.lean ====
section
/-! DEFINITION. The text of an instruction (spec/30_encoding.md R129, R130; D33), for the host's `inst()`. -/

namespace Sys2Proof.Machine

/-- The three letters of a mnemonic. -/
def mnemonicText : Mnemonic → String
  | .adc => "ADC"
  | .and => "AND"
  | .asl => "ASL"
  | .bcc => "BCC"
  | .bcs => "BCS"
  | .beq => "BEQ"
  | .bit => "BIT"
  | .bmi => "BMI"
  | .bne => "BNE"
  | .bpl => "BPL"
  | .brk => "BRK"
  | .bvc => "BVC"
  | .bvs => "BVS"
  | .clc => "CLC"
  | .cld => "CLD"
  | .cli => "CLI"
  | .clv => "CLV"
  | .cmp => "CMP"
  | .cpx => "CPX"
  | .cpy => "CPY"
  | .dcm => "DCM"
  | .dec => "DEC"
  | .dex => "DEX"
  | .dey => "DEY"
  | .eor => "EOR"
  | .inc => "INC"
  | .inx => "INX"
  | .iny => "INY"
  | .isb => "ISB"
  | .jmp => "JMP"
  | .jsr => "JSR"
  | .lax => "LAX"
  | .lda => "LDA"
  | .ldx => "LDX"
  | .ldy => "LDY"
  | .lsr => "LSR"
  | .nop => "NOP"
  | .ora => "ORA"
  | .pha => "PHA"
  | .php => "PHP"
  | .pla => "PLA"
  | .plp => "PLP"
  | .rol => "ROL"
  | .ror => "ROR"
  | .rti => "RTI"
  | .rts => "RTS"
  | .sax => "SAX"
  | .sbc => "SBC"
  | .sec => "SEC"
  | .sed => "SED"
  | .sei => "SEI"
  | .sta => "STA"
  | .stx => "STX"
  | .sty => "STY"
  | .tax => "TAX"
  | .tay => "TAY"
  | .tsx => "TSX"
  | .txa => "TXA"
  | .txs => "TXS"
  | .tya => "TYA"

/-- One hexadecimal digit. -/
def hexDigit (n : Nat) : String :=
  ["0", "1", "2", "3", "4", "5", "6", "7", "8", "9", "A", "B", "C", "D", "E", "F"].getD n "0"

/-- `$nn`. -/
def hexByte (b : Byte) : String := "$" ++ hexDigit (b.toNat / 16) ++ hexDigit (b.toNat % 16)

/-- `$nnnn`. -/
def hexAddr (a : Addr) : String :=
  "$" ++ hexDigit (a.toNat / 4096) ++ hexDigit (a.toNat / 256 % 16) ++ hexDigit (a.toNat / 16 % 16) ++ hexDigit (a.toNat % 16)

/-- The operand of a mode (R129). `pc` is the opcode's address: a branch shows its target. -/
def operandText (m : Mode) (pc : Addr) (b1 b2 : Byte) : String :=
  match m with
  | .implicit => ""
  | .accumulator => " A"
  | .immediate => " #" ++ hexByte b1
  | .zeroPage => " " ++ hexByte b1
  | .zeroPageX => " " ++ hexByte b1 ++ ",X"
  | .zeroPageY => " " ++ hexByte b1 ++ ",Y"
  | .relative => " " ++ hexAddr (pc + 2 + b1.signExtend 16)
  | .absolute => " " ++ hexAddr (word b2 b1)
  | .absoluteX => " " ++ hexAddr (word b2 b1) ++ ",X"
  | .absoluteY => " " ++ hexAddr (word b2 b1) ++ ",Y"
  | .indirect => " (" ++ hexAddr (word b2 b1) ++ ")"
  | .indirectX => " (" ++ hexByte b1 ++ ",X)"
  | .indirectY => " (" ++ hexByte b1 ++ "),Y"

/-- The text of the instruction whose bytes are `op b1 b2`, at `pc`; undocumented ones with a leading `*` (R129). -/
def disassemble (pc : Addr) (op b1 b2 : Byte) : Option String :=
  (instrOf op b1 b2).map fun i =>
    (if i.row.official then "" else "*") ++ mnemonicText i.row.mnemonic ++ operandText i.row.mode pc b1 b2

end Sys2Proof.Machine
end

