-- ==== Sys2Proof/Machine/HostCalls.lean ====
section
/-! DEFINITION. What a host may do between bus ticks (spec/70_reset_and_hazards.md R457, D39). `BusTick()` is
Machine/Sequencer.lean, system reset Machine/Reset.lean, `trigger_nmi()` and `trigger_irq()` Machine/Ops.lean. -/

namespace Sys2Proof.Machine

/-- `cpu.step()`: one step whatever the debt is, no PPU dot, and the cycles it returns (R457; R140). -/
def hostStep (s : State) : Result × Option Nat := (cpuStep s, stepReturns s)

/-- `pc()` (R457). -/
def hostPc (s : State) : Addr := s.cpu.pc

/-- `set_pc(addr)`: it also clears the fault (R457, D9). -/
def hostSetPc (a : Addr) (s : State) : State := (s.setPc a).setFault none

/-- `inst()`: the text of the instruction at `PC`, its bytes read through the side-effect-free view `peek`, at every
`PC`; an illegal byte has no text (R457, D39; log entry 12). -/
def hostInst (s : State) : Option String :=
  disassemble s.cpu.pc (peek s.cpu.pc s) (peek (s.cpu.pc + 1) s) (peek (s.cpu.pc + 2) s)

/-- `get_pixels()`: the colour index at column `x` of line `y` (R457; 10_state.md R46). -/
def hostPixel (x y : Nat) (s : State) : BitVec 6 := s.ppu.framebuffer.read (x + y * 256)

/-- The RGBA value a host makes of a colour index: `SYSTEM_PALETTE[c]`, alpha 0xFF (10_state.md R46, D27). -/
def hostRgba (x y : Nat) (s : State) : Rgb × Byte :=
  (s.cfg.systemPalette.getD (hostPixel x y s).toNat ⟨0, 0, 0⟩, 0xFF)

/-- `get_resolution()` (R457). -/
def hostResolution : Nat × Nat := (256, 240)

/-- Success of a test program, a host's judgement: `PC` at the expected address and unchanged by a step (R458, D40). -/
def hostSpins (expected : Addr) (s : State) : Prop :=
  s.cpu.pc = expected ∧ s.cpu.fault = none ∧ ∃ t, cpuStep s = .next t ∧ t.cpu.pc = expected ∧ t.cpu.fault = none

end Sys2Proof.Machine
end

