-- ==== Sys2Proof/Tests/Slice0.lean ====
section
/-! SUPPORT. The model's own tests. Every expected result is written from the spec: the words from spec/opcode_table.json
and spec/30_encoding.md, the steps from spec/95_test_vectors.md (each named by its vector). The last part has one concrete
state and operands for the hypotheses of each statement. -/

namespace Sys2Proof.Tests
open Sys2Proof Sys2Proof.Machine

-- One theorem after another: each kernel evaluation of the many small tests would else hold a thread of its own.
set_option Elab.async false

/-! ### Ill-formed terms are refused (spec/30_encoding.md R122; spec/00_scope.md R9; spec/20_memory.md R88) -/

theorem test_wf_refuses_offset_above : ([.bcc 128, .bcs 128, .beq 128, .bne 128, .bmi 128, .bpl 128, .bvc 128, .bvs 128] :
    List Instr).all (fun i => !i.wf) = true := by decide
theorem test_wf_refuses_offset_below : ([.bcc (-129), .bcs (-129), .beq (-129), .bne (-129), .bmi (-129), .bpl (-129),
    .bvc (-129), .bvs (-129)] : List Instr).all (fun i => !i.wf) = true := by decide
theorem test_wf_accepts_offset_bounds : ([.bcc 127, .bcs (-128), .beq 127, .bne (-128), .bmi 127, .bpl (-128), .bvc 127,
    .bvs (-128)] : List Instr).all (fun i => i.wf) = true := by decide
theorem test_launch_wf_refuses_ram : ({ PowerOn.simulationDefault with ram := [(0x800, 1)] }).wf = false := by decide
theorem test_launch_wf_refuses_vram : ({ PowerOn.simulationDefault with vram := [(0x800, 1)] }).wf = false := by decide
theorem test_launch_wf_refuses_oam : ({ PowerOn.simulationDefault with oam := [(0x100, 1)] }).wf = false := by decide
theorem test_launch_wf_refuses_palette : ({ PowerOn.simulationDefault with palette := [(0x20, 1)] }).wf = false := by decide
theorem test_launch_wf_refuses_prg_ram : ({ PowerOn.simulationDefault with prgRam := [(0x2000, 1)] }).wf = false := by
  decide
theorem test_launch_wf_refuses_flat : ({ PowerOn.simulationDefault with flatMem := [(0x10000, 1)] }).wf = false := by decide
theorem test_launch_wf_refuses_unsorted : ({ PowerOn.simulationDefault with ram := [(2, 1), (1, 1)] }).wf = false := by decide
theorem test_launch_wf_refuses_listed_zero : ({ PowerOn.simulationDefault with ram := [(2, 0)] }).wf = false := by decide
theorem test_config_wf_refuses_long_rom : ({ Config.default with prgRom := [(0x4000, 1)] }).wf = false := by decide +kernel
theorem test_config_wf_accepts_two_banks :
    ({ Config.default with prgRom := [(0x4000, 1)], prgBanks := .two }).wf = true := by decide +kernel
theorem test_config_wf_refuses_long_chr : ({ Config.default with chr := [(0x2000, 1)] }).wf = false := by decide +kernel
theorem test_config_wf_refuses_short_palette :
    ({ Config.default with systemPalette := [] }).wf = false := by decide +kernel
theorem test_config_wf_refuses_bad_launch :
    ({ Config.default with powerOn := { PowerOn.simulationDefault with ram := [(0x800, 1)] } }).wf = false := by
  decide +kernel

/-! ### Decoding: one word for each row of the opcode table, its operand bits all different (R120 to R122, R126) -/

/-- Every listed word decodes to its instruction. -/
def decodesAll (rows : List (Nat × Nat × Instr)) : Bool := rows.all fun r => decodeTableWord r.1 r.2.1 = some r.2.2

theorem test_decode_load_store_1 : decodesAll
    [(16, 0x9781, .staIndX 0x97), (16, 0xA584, .styZp 0xA5), (16, 0xAC85, .staZp 0xAC), (16, 0xB386, .stxZp 0xB3),
    (8, 0x8A, .txa), (24, 0x6DCF8C, .styAbs 0x6DCF), (24, 0x72D68D, .staAbs 0x72D6),
    (24, 0x77DD8E, .stxAbs 0x77DD), (16, 0xF291, .staIndY 0xF2), (16, 0xF994, .styZpX 0xF9),
    (16, 0x0095, .staZpX 0x00), (16, 0x0796, .stxZpY 0x07), (8, 0x98, .tya), (24, 0xA41C99, .staAbsY 0xA41C),
    (8, 0x9A, .txs), (24, 0xAE2A9D, .staAbsX 0xAE2A)] = true := by decide +kernel

theorem test_decode_load_store_2 : decodesAll
    [(16, 0x31A0, .ldyImm 0x31), (16, 0x38A1, .ldaIndX 0x38), (16, 0x3FA2, .ldxImm 0x3F), (16, 0x4DA4, .ldyZp 0x4D),
    (16, 0x54A5, .ldaZp 0x54), (16, 0x5BA6, .ldxZp 0x5B), (8, 0xA8, .tay), (16, 0x70A9, .ldaImm 0x70),
    (8, 0xAA, .tax), (24, 0xEA7EAC, .ldyAbs 0xEA7E), (24, 0xEF85AD, .ldaAbs 0xEF85),
    (24, 0xF48CAE, .ldxAbs 0xF48C), (16, 0xA1B1, .ldaIndY 0xA1), (16, 0xAFB4, .ldyZpX 0xAF),
    (16, 0xB6B5, .ldaZpX 0xB6), (16, 0xBDB6, .ldxZpY 0xBD)] = true := by decide +kernel

theorem test_decode_load_store_3 : decodesAll
    [(24, 0x26D2B9, .ldaAbsY 0x26D2), (8, 0xBA, .tsx), (24, 0x30E0BC, .ldyAbsX 0x30E0),
    (24, 0x35E7BD, .ldaAbsX 0x35E7), (24, 0x3AEEBE, .ldxAbsY 0x3AEE)] = true := by decide +kernel

theorem test_decode_stack_1 : decodesAll
    [(8, 0x08, .php), (8, 0x28, .plp), (8, 0x48, .pha), (8, 0x68, .pla)] = true := by decide +kernel

theorem test_decode_arithmetic_1 : decodesAll
    [(16, 0xFD61, .adcIndX 0xFD), (16, 0x0B65, .adcZp 0x0B), (16, 0x2069, .adcImm 0x20),
    (24, 0xFF356D, .adcAbs 0xFF35), (16, 0x4A71, .adcIndY 0x4A), (16, 0x5875, .adcZpX 0x58),
    (24, 0x276D79, .adcAbsY 0x276D), (24, 0x36827D, .adcAbsX 0x3682), (8, 0x88, .dey), (16, 0xFCC0, .cpyImm 0xFC),
    (16, 0x03C1, .cmpIndX 0x03), (16, 0x11C4, .cpyZp 0x11), (16, 0x18C5, .cmpZp 0x18), (16, 0x1FC6, .decZp 0x1F),
    (8, 0xC8, .iny), (16, 0x34C9, .cmpImm 0x34)] = true := by decide +kernel

theorem test_decode_arithmetic_2 : decodesAll
    [(8, 0xCA, .dex), (24, 0x7642CC, .cpyAbs 0x7642), (24, 0x7B49CD, .cmpAbs 0x7B49),
    (24, 0x8050CE, .decAbs 0x8050), (16, 0x65D1, .cmpIndY 0x65), (16, 0x7AD5, .cmpZpX 0x7A),
    (16, 0x81D6, .decZpX 0x81), (24, 0xB296D9, .cmpAbsY 0xB296), (24, 0xC6B2DD, .cmpAbsX 0xC6B2),
    (24, 0xCBB9DE, .decAbsX 0xCBB9), (16, 0xC7E0, .cpxImm 0xC7), (16, 0xCEE1, .sbcIndX 0xCE),
    (16, 0xDCE4, .cpxZp 0xDC), (16, 0xE3E5, .sbcZp 0xE3), (16, 0xEAE6, .incZp 0xEA), (8, 0xE8, .inx)] = true := by decide +kernel

theorem test_decode_arithmetic_3 : decodesAll
    [(16, 0xFFE9, .sbcImm 0xFF), (24, 0x0C14EC, .cpxAbs 0x0C14), (24, 0x111BED, .sbcAbs 0x111B),
    (24, 0x1622EE, .incAbs 0x1622), (16, 0x37F1, .sbcIndY 0x37), (16, 0x4CF5, .sbcZpX 0x4C),
    (16, 0x53F6, .incZpX 0x53), (24, 0x4868F9, .sbcAbsY 0x4868), (24, 0x5C84FD, .sbcAbsX 0x5C84),
    (24, 0x618BFE, .incAbsX 0x618B)] = true := by decide +kernel

theorem test_decode_logic_1 : decodesAll
    [(16, 0x2F01, .oraIndX 0x2F), (16, 0x3D05, .oraZp 0x3D), (16, 0x4406, .aslZp 0x44), (16, 0x5209, .oraImm 0x52),
    (8, 0x0A, .aslAcc), (24, 0xB5670D, .oraAbs 0xB567), (24, 0xBA6E0E, .aslAbs 0xBA6E),
    (16, 0x7C11, .oraIndY 0x7C), (16, 0x8A15, .oraZpX 0x8A), (16, 0x9116, .aslZpX 0x91),
    (24, 0xDD9F19, .oraAbsY 0xDD9F), (24, 0xECB41D, .oraAbsX 0xECB4), (24, 0xF1BB1E, .aslAbsX 0xF1BB),
    (16, 0xC921, .andIndX 0xC9), (16, 0xD024, .bitZp 0xD0), (16, 0xD725, .andZp 0xD7)] = true := by decide +kernel

theorem test_decode_logic_2 : decodesAll
    [(16, 0xDE26, .rolZp 0xDE), (16, 0xEC29, .andImm 0xEC), (8, 0x2A, .rolAcc), (24, 0x1EFA2C, .bitAbs 0x1EFA),
    (24, 0x23012D, .andAbs 0x2301), (24, 0x28082E, .rolAbs 0x2808), (16, 0x1631, .andIndY 0x16),
    (16, 0x2435, .andZpX 0x24), (16, 0x2B36, .rolZpX 0x2B), (24, 0x4B3939, .andAbsY 0x4B39),
    (24, 0x5A4E3D, .andAbsX 0x5A4E), (24, 0x5F553E, .rolAbsX 0x5F55), (16, 0x6341, .eorIndX 0x63),
    (16, 0x7145, .eorZp 0x71), (16, 0x7846, .lsrZp 0x78), (16, 0x8649, .eorImm 0x86)] = true := by decide +kernel

theorem test_decode_logic_3 : decodesAll
    [(8, 0x4A, .lsrAcc), (24, 0x919B4D, .eorAbs 0x919B), (24, 0x96A24E, .lsrAbs 0x96A2),
    (16, 0xB051, .eorIndY 0xB0), (16, 0xBE55, .eorZpX 0xBE), (16, 0xC556, .lsrZpX 0xC5),
    (24, 0xB9D359, .eorAbsY 0xB9D3), (24, 0xC8E85D, .eorAbsX 0xC8E8), (24, 0xCDEF5E, .lsrAbsX 0xCDEF),
    (16, 0x1266, .rorZp 0x12), (8, 0x6A, .rorAcc), (24, 0x043C6E, .rorAbs 0x043C), (16, 0x5F76, .rorZpX 0x5F),
    (24, 0x3B897E, .rorAbsX 0x3B89)] = true := by decide +kernel

theorem test_decode_control_1 : decodesAll
    [(8, 0x00, .brk), (16, 0x7510, .bpl 117), (8, 0x18, .clc), (24, 0xF6C220, .jsr 0xF6C2), (16, 0x0F30, .bmi 15),
    (8, 0x38, .sec), (8, 0x40, .rti), (24, 0x8C944C, .jmpAbs 0x8C94), (16, 0xA950, .bvc (-87)), (8, 0x58, .cli),
    (8, 0x60, .rts), (24, 0xFA2E6C, .jmpInd 0xFA2E), (16, 0x4370, .bvs 67), (8, 0x78, .sei),
    (16, 0xEB90, .bcc (-21)), (16, 0x9AB0, .bcs (-102))] = true := by decide +kernel

theorem test_decode_control_2 : decodesAll
    [(8, 0xB8, .clv), (16, 0x5ED0, .bne 94), (8, 0xD8, .cld), (16, 0x30F0, .beq 48), (8, 0xF8, .sed)] = true := by decide +kernel

theorem test_decode_undocumented_1 : decodesAll
    [(16, 0x3604, .nop04 0x36), (24, 0xB0600C, .nop0C 0xB060), (16, 0x8314, .nop14 0x83), (8, 0x1A, .nop1A),
    (24, 0xE7AD1C, .nop1C 0xE7AD), (16, 0x1D34, .nop34 0x1D), (8, 0x3A, .nop3A), (24, 0x55473C, .nop3C 0x5547),
    (16, 0x6A44, .nop44 0x6A), (16, 0xB754, .nop54 0xB7), (8, 0x5A, .nop5A), (24, 0xC3E15C, .nop5C 0xC3E1),
    (16, 0x0464, .nop64 0x04), (16, 0x5174, .nop74 0x51), (8, 0x7A, .nop7A), (24, 0x317B7C, .nop7C 0x317B)] = true := by decide +kernel

theorem test_decode_undocumented_2 : decodesAll
    [(16, 0x9080, .nop80 0x90), (16, 0x9E83, .saxIndX 0x9E), (16, 0xBA87, .saxZp 0xBA),
    (24, 0x7CE48F, .saxAbs 0x7CE4), (16, 0x0E97, .saxZpY 0x0E), (16, 0x46A3, .laxIndX 0x46),
    (16, 0x62A7, .laxZp 0x62), (24, 0xF993AF, .laxAbs 0xF993), (16, 0xA8B3, .laxIndY 0xA8),
    (16, 0xC4B7, .laxZpY 0xC4), (24, 0x3FF5BF, .laxAbsY 0x3FF5), (16, 0x0AC3, .dcmIndX 0x0A),
    (16, 0x26C7, .dcmZp 0x26), (24, 0x8557CF, .dcmAbs 0x8557), (16, 0x6CD3, .dcmIndY 0x6C),
    (16, 0x73D4, .nopD4 0x73)] = true := by decide +kernel

theorem test_decode_undocumented_3 : decodesAll
    [(16, 0x88D7, .dcmZpX 0x88), (8, 0xDA, .nopDA), (24, 0xBCA4DB, .dcmAbsY 0xBCA4), (24, 0xC1ABDC, .nopDC 0xC1AB),
    (24, 0xD0C0DF, .dcmAbsX 0xD0C0), (16, 0xD5E3, .isbIndX 0xD5), (16, 0xF1E7, .isbZp 0xF1), (8, 0xEA, .nop),
    (16, 0x0DEB, .sbcImmEB 0x0D), (24, 0x1B29EF, .isbAbs 0x1B29), (16, 0x3EF3, .isbIndY 0x3E),
    (16, 0x45F4, .nopF4 0x45), (16, 0x5AF7, .isbZpX 0x5A), (8, 0xFA, .nopFA), (24, 0x5276FB, .isbAbsY 0x5276),
    (24, 0x577DFC, .nopFC 0x577D)] = true := by decide +kernel

theorem test_decode_undocumented_4 : decodesAll
    [(24, 0x6692FF, .isbAbsX 0x6692)] = true := by decide +kernel

/-- The 57 bytes without a row are illegal, whatever follows (R127). -/
theorem test_decode_count :
    ((List.range 256).filter fun n => (instrOf (BitVec.ofNat 8 n) 0 0).isNone).length = 57 := by decide +kernel

/-- Operand bits above `nbits` are zero (an operand byte the word does not give). -/
theorem test_decode_short_word : decodeTableWord 8 0xAD = some (.ldaAbs 0) := by decide +kernel

/-! ### One step -/

/-- The stand-alone CPU of the vectors (spec/95_test_vectors.md §0): A, X, Y, S, P, PC and the bytes that are not 0. -/
def flat (a x y sp p : Byte) (pc : Addr) (cells : List (Nat × Byte)) : State :=
  { State.reset with
    cfg := { Config.default with bus := .flat }
    cpu := { Cpu.reset with a := a, x := x, y := y, s := sp, p := p, pc := pc }
    flatMem := cells.foldl (fun m c => m.write c.1 c.2) [] }

/-- What one `Step()` leaves: A, X, Y, S, P, PC, the debt, and the bytes at the given addresses. -/
def stepped (s : State) (cells : List Addr) : Option (List Byte × Addr × Nat × List Byte) :=
  match cpuStep s with
  | .next t => some ([t.cpu.a, t.cpu.x, t.cpu.y, t.cpu.s, t.cpu.p], t.cpu.pc, t.cpu.cycles, cells.map fun a => peek a t)
  | _ => none

/-- V-LS-8: LDA R170 - (Indirect,X): pointer high byte from $0000, not $0100 (rule R154) -/
theorem test_LDA_V_LS_8 :
    stepped (flat 0x00 0x01 0x00 0xFD 0x24 0x0200 [(0x200, 0xA1), (0x201, 0xFE), (0x0, 0x12), (0xFF, 0x34), (0x100, 0x77), (0x1234, 0x5A)]) [] =
      some ([0x5A, 0x01, 0x00, 0xFD, 0x24], 0x0202, 6, []) := by
  decide +kernel

/-- V-LS-9: LDA R170 - (Indirect),Y: pointer wraps in page 0; $1280+$90 crosses: +1 (rule R155) -/
theorem test_LDA_V_LS_9 :
    stepped (flat 0x00 0x00 0x90 0xFD 0x24 0x0200 [(0x200, 0xB1), (0x201, 0xFF), (0x0, 0x12), (0xFF, 0x80), (0x1310, 0xC3)]) [] =
      some ([0xC3, 0x00, 0x90, 0xFD, 0xA4], 0x0202, 6, []) := by
  decide +kernel

/-- V-LS-4: LDX R171 - ZeroPage,Y wrap (rule R148) -/
theorem test_LDX_V_LS_4 :
    stepped (flat 0x00 0x00 0x02 0xFD 0x24 0x0200 [(0x200, 0xB6), (0x201, 0xFF), (0x1, 0x33)]) [] =
      some ([0x00, 0x33, 0x02, 0xFD, 0x24], 0x0202, 4, []) := by
  decide +kernel

/-- V-LS-16: LDX R171 - LDX Absolute,Y no cross -/
theorem test_LDX_V_LS_16 :
    stepped (flat 0x00 0x00 0xFF 0xFD 0x24 0x0200 [(0x200, 0xBE), (0x201, 0x00), (0x202, 0x03), (0x3FF, 0x80)]) [] =
      some ([0x00, 0x80, 0xFF, 0xFD, 0xA4], 0x0203, 4, []) := by
  decide +kernel

/-- V-LS-15: LDY R172 - LDY Absolute,X cross -/
theorem test_LDY_V_LS_15 :
    stepped (flat 0x00 0xFF 0x00 0xFD 0x24 0x0200 [(0x200, 0xBC), (0x201, 0x01), (0x202, 0x02), (0x300, 0x01)]) [] =
      some ([0x00, 0xFF, 0x01, 0xFD, 0x24], 0x0203, 5, []) := by
  decide +kernel

/-- V-LS-11: STA R173 - store: 5 cycles with or without a cross; target not read -/
theorem test_STA_V_LS_11 :
    stepped (flat 0xAB 0x20 0x00 0xFD 0x24 0x0200 [(0x200, 0x9D), (0x201, 0xF0), (0x202, 0x12)]) [0x1310] =
      some ([0xAB, 0x20, 0x00, 0xFD, 0x24], 0x0203, 5, [0xAB]) := by
  decide +kernel

/-- V-LS-14: STA R173 - ($10+$F0) mod 256 = $00 -/
theorem test_STA_V_LS_14 :
    stepped (flat 0x11 0xF0 0x00 0xFD 0x24 0x0200 [(0x200, 0x81), (0x201, 0x10), (0x0, 0x00), (0x1, 0x04)]) [0x0400] =
      some ([0x11, 0xF0, 0x00, 0xFD, 0x24], 0x0202, 6, [0x11]) := by
  decide +kernel

/-- V-LS-13: STX R174 - STX ZeroPage,Y wrap -/
theorem test_STX_V_LS_13 :
    stepped (flat 0x00 0x66 0x20 0xFD 0x24 0x0200 [(0x200, 0x96), (0x201, 0xF0)]) [0x0010] =
      some ([0x00, 0x66, 0x20, 0xFD, 0x24], 0x0202, 4, [0x66]) := by
  decide +kernel

/-- V-LS-17: STY R175 - STY ZeroPage,X wrap -/
theorem test_STY_V_LS_17 :
    stepped (flat 0x00 0x90 0x42 0xFD 0x24 0x0200 [(0x200, 0x94), (0x201, 0x80)]) [0x0010] =
      some ([0x00, 0x90, 0x42, 0xFD, 0x24], 0x0202, 4, [0x42]) := by
  decide +kernel

/-- V-LS-18: TAX R180 - TAX sets Z, clears N -/
theorem test_TAX_V_LS_18 :
    stepped (flat 0x00 0x00 0x00 0xFD 0xA4 0x0200 [(0x200, 0xAA)]) [] =
      some ([0x00, 0x00, 0x00, 0xFD, 0x26], 0x0201, 2, []) := by
  decide +kernel

/-- V-LS-19: TAY R181 -/
theorem test_TAY_V_LS_19 :
    stepped (flat 0xFF 0x00 0x00 0xFD 0x24 0x0200 [(0x200, 0xA8)]) [] =
      some ([0xFF, 0x00, 0xFF, 0xFD, 0xA4], 0x0201, 2, []) := by
  decide +kernel

/-- V-LS-20: TXA R182 - clears N and Z -/
theorem test_TXA_V_LS_20 :
    stepped (flat 0xFF 0x10 0x00 0xFD 0xA6 0x0200 [(0x200, 0x8A)]) [] =
      some ([0x10, 0x10, 0x00, 0xFD, 0x24], 0x0201, 2, []) := by
  decide +kernel

/-- V-LS-21: TYA R183 -/
theorem test_TYA_V_LS_21 :
    stepped (flat 0x00 0x00 0x80 0xFD 0x24 0x0200 [(0x200, 0x98)]) [] =
      some ([0x80, 0x00, 0x80, 0xFD, 0xA4], 0x0201, 2, []) := by
  decide +kernel

/-- V-LS-22: TSX R186 - TSX sets N from S -/
theorem test_TSX_V_LS_22 :
    stepped (flat 0x00 0x00 0x00 0xFD 0x24 0x0200 [(0x200, 0xBA)]) [] =
      some ([0x00, 0xFD, 0x00, 0xFD, 0xA4], 0x0201, 2, []) := by
  decide +kernel

/-- V-LS-23: TXS R187 - TXS leaves N and Z alone -/
theorem test_TXS_V_LS_23 :
    stepped (flat 0x00 0x00 0x00 0xFD 0xA4 0x0200 [(0x200, 0x9A)]) [] =
      some ([0x00, 0x00, 0x00, 0x00, 0xA4], 0x0201, 2, []) := by
  decide +kernel

/-- V-ST-1: PHA R203 - store at $0100+S, then S-1 -/
theorem test_PHA_V_ST_1 :
    stepped (flat 0x42 0x00 0x00 0xFD 0x24 0x0200 [(0x200, 0x48)]) [0x01FD] =
      some ([0x42, 0x00, 0x00, 0xFC, 0x24], 0x0201, 3, [0x42]) := by
  decide +kernel

/-- V-ST-2: PHP R204 - pushed image has B=1, U=1: $34; P itself unchanged -/
theorem test_PHP_V_ST_2 :
    stepped (flat 0x00 0x00 0x00 0xFD 0x24 0x0200 [(0x200, 0x08)]) [0x01FD] =
      some ([0x00, 0x00, 0x00, 0xFC, 0x24], 0x0201, 3, [0x34]) := by
  decide +kernel

/-- V-ST-3: PHP R204 -/
theorem test_PHP_V_ST_3 :
    stepped (flat 0x00 0x00 0x00 0xFD 0xEF 0x0200 [(0x200, 0x08)]) [0x01FD] =
      some ([0x00, 0x00, 0x00, 0xFC, 0xEF], 0x0201, 3, [0xFF]) := by
  decide +kernel

/-- V-ST-4: PLA R205 - Z from the popped byte -/
theorem test_PLA_V_ST_4 :
    stepped (flat 0x55 0x00 0x00 0xFC 0x24 0x0200 [(0x200, 0x68), (0x1FD, 0x00)]) [] =
      some ([0x00, 0x00, 0x00, 0xFD, 0x26], 0x0201, 4, []) := by
  decide +kernel

/-- V-ST-5: PLA R205 - S wraps $FF -> $00; reads $0100 -/
theorem test_PLA_V_ST_5 :
    stepped (flat 0x00 0x00 0x00 0xFF 0x24 0x0200 [(0x200, 0x68), (0x100, 0x80)]) [] =
      some ([0x80, 0x00, 0x00, 0x00, 0xA4], 0x0201, 4, []) := by
  decide +kernel

/-- V-ST-6: PLP R206 - B forced 0, U forced 1 -/
theorem test_PLP_V_ST_6 :
    stepped (flat 0x00 0x00 0x00 0xFC 0x24 0x0200 [(0x200, 0x28), (0x1FD, 0xFF)]) [] =
      some ([0x00, 0x00, 0x00, 0xFD, 0xEF], 0x0201, 4, []) := by
  decide +kernel

/-- V-ST-7: PLP R206 - U forced 1; I cleared by the pulled byte -/
theorem test_PLP_V_ST_7 :
    stepped (flat 0x00 0x00 0x00 0xFC 0xEF 0x0200 [(0x200, 0x28), (0x1FD, 0x00)]) [] =
      some ([0x00, 0x00, 0x00, 0xFD, 0x20], 0x0201, 4, []) := by
  decide +kernel

/-- V-AR-1: ADC R212 - signed overflow into negative -/
theorem test_ADC_V_AR_1 :
    stepped (flat 0x7F 0x00 0x00 0xFD 0x24 0x0200 [(0x200, 0x69), (0x201, 0x01)]) [] =
      some ([0x80, 0x00, 0x00, 0xFD, 0xE4], 0x0202, 2, []) := by
  decide +kernel

/-- V-AR-14: ADC R212 - Absolute,X cross +1 -/
theorem test_ADC_V_AR_14 :
    stepped (flat 0x01 0x01 0x00 0xFD 0x24 0x0200 [(0x200, 0x7D), (0x201, 0xFF), (0x202, 0x02), (0x300, 0x02)]) [] =
      some ([0x03, 0x01, 0x00, 0xFD, 0x24], 0x0203, 5, []) := by
  decide +kernel

/-- V-AR-7: SBC R214 - borrow out: C=0 -/
theorem test_SBC_V_AR_7 :
    stepped (flat 0x00 0x00 0x00 0xFD 0x25 0x0200 [(0x200, 0xE9), (0x201, 0x01)]) [] =
      some ([0xFF, 0x00, 0x00, 0xFD, 0xA4], 0x0202, 2, []) := by
  decide +kernel

/-- V-AR-11: SBC R214 - V: 80 - (-80) -/
theorem test_SBC_V_AR_11 :
    stepped (flat 0x50 0x00 0x00 0xFD 0x25 0x0200 [(0x200, 0xE9), (0x201, 0xB0)]) [] =
      some ([0xA0, 0x00, 0x00, 0xFD, 0xE4], 0x0202, 2, []) := by
  decide +kernel

/-- V-AR-23: CMP R216 - a < b: C=0, N=1 -/
theorem test_CMP_V_AR_23 :
    stepped (flat 0x00 0x00 0x00 0xFD 0x24 0x0200 [(0x200, 0xC9), (0x201, 0x01)]) [] =
      some ([0x00, 0x00, 0x00, 0xFD, 0xA4], 0x0202, 2, []) := by
  decide +kernel

/-- V-AR-25: CMP R216 - equal: Z, C; V untouched -/
theorem test_CMP_V_AR_25 :
    stepped (flat 0x10 0x00 0x00 0xFD 0xE4 0x0200 [(0x200, 0xC9), (0x201, 0x10)]) [] =
      some ([0x10, 0x00, 0x00, 0xFD, 0x67], 0x0202, 2, []) := by
  decide +kernel

/-- V-AR-26: CPX R217 -/
theorem test_CPX_V_AR_26 :
    stepped (flat 0x00 0x03 0x00 0xFD 0x24 0x0200 [(0x200, 0xE0), (0x201, 0x05)]) [] =
      some ([0x00, 0x03, 0x00, 0xFD, 0xA4], 0x0202, 2, []) := by
  decide +kernel

/-- V-AR-27: CPY R218 -/
theorem test_CPY_V_AR_27 :
    stepped (flat 0x00 0x00 0x00 0xFD 0x24 0x0200 [(0x200, 0xC0), (0x201, 0x00)]) [] =
      some ([0x00, 0x00, 0x00, 0xFD, 0x27], 0x0202, 2, []) := by
  decide +kernel

/-- V-AR-28: CPY R218 -/
theorem test_CPY_V_AR_28 :
    stepped (flat 0x00 0x00 0xFF 0xFD 0x24 0x0200 [(0x200, 0xCC), (0x201, 0x00), (0x202, 0x03), (0x300, 0x7F)]) [] =
      some ([0x00, 0x00, 0xFF, 0xFD, 0xA5], 0x0203, 4, []) := by
  decide +kernel

/-- V-AR-29: INC R220 - wrap to 0; C untouched; one read, one write -/
theorem test_INC_V_AR_29 :
    stepped (flat 0x00 0x00 0x00 0xFD 0x25 0x0200 [(0x200, 0xE6), (0x201, 0x10), (0x10, 0xFF)]) [0x0010] =
      some ([0x00, 0x00, 0x00, 0xFD, 0x27], 0x0202, 5, [0x00]) := by
  decide +kernel

/-- V-AR-33: INC R220 - RMW ZeroPage,X wrap -/
theorem test_INC_V_AR_33 :
    stepped (flat 0x00 0x02 0x00 0xFD 0x24 0x0200 [(0x200, 0xF6), (0x201, 0xFF), (0x1, 0x0F)]) [0x0001] =
      some ([0x00, 0x02, 0x00, 0xFD, 0x24], 0x0202, 6, [0x10]) := by
  decide +kernel

/-- V-AR-31: DEC R223 -/
theorem test_DEC_V_AR_31 :
    stepped (flat 0x00 0x00 0x00 0xFD 0x24 0x0200 [(0x200, 0xC6), (0x201, 0x10), (0x10, 0x00)]) [0x0010] =
      some ([0x00, 0x00, 0x00, 0xFD, 0xA4], 0x0202, 5, [0xFF]) := by
  decide +kernel

/-- V-AR-32: DEC R223 - RMW Absolute,X: fixed 7, no page penalty -/
theorem test_DEC_V_AR_32 :
    stepped (flat 0x00 0x01 0x00 0xFD 0x24 0x0200 [(0x200, 0xDE), (0x201, 0xFF), (0x202, 0x02), (0x300, 0x01)]) [0x0300] =
      some ([0x00, 0x01, 0x00, 0xFD, 0x26], 0x0203, 7, [0x00]) := by
  decide +kernel

/-- V-AR-34: INX R221 -/
theorem test_INX_V_AR_34 :
    stepped (flat 0x00 0xFF 0x00 0xFD 0x25 0x0200 [(0x200, 0xE8)]) [] =
      some ([0x00, 0x00, 0x00, 0xFD, 0x27], 0x0201, 2, []) := by
  decide +kernel

/-- V-AR-36: INY R222 -/
theorem test_INY_V_AR_36 :
    stepped (flat 0x00 0x00 0x7F 0xFD 0x24 0x0200 [(0x200, 0xC8)]) [] =
      some ([0x00, 0x00, 0x80, 0xFD, 0xA4], 0x0201, 2, []) := by
  decide +kernel

/-- V-AR-35: DEX R224 -/
theorem test_DEX_V_AR_35 :
    stepped (flat 0x00 0x00 0x00 0xFD 0x24 0x0200 [(0x200, 0xCA)]) [] =
      some ([0x00, 0xFF, 0x00, 0xFD, 0xA4], 0x0201, 2, []) := by
  decide +kernel

/-- V-AR-37: DEY R225 -/
theorem test_DEY_V_AR_37 :
    stepped (flat 0x00 0x00 0x01 0xFD 0x24 0x0200 [(0x200, 0x88)]) [] =
      some ([0x00, 0x00, 0x00, 0xFD, 0x26], 0x0201, 2, []) := by
  decide +kernel

/-- V-LG-1: AND R240 -/
theorem test_AND_V_LG_1 :
    stepped (flat 0xF0 0x00 0x00 0xFD 0x24 0x0200 [(0x200, 0x29), (0x201, 0x0F)]) [] =
      some ([0x00, 0x00, 0x00, 0xFD, 0x26], 0x0202, 2, []) := by
  decide +kernel

/-- V-LG-5: AND R240 - AND (Indirect),Y cross +1 -/
theorem test_AND_V_LG_5 :
    stepped (flat 0xFF 0x00 0x01 0xFD 0x24 0x0200 [(0x200, 0x31), (0x201, 0x10), (0x10, 0xFF), (0x11, 0x02), (0x300, 0x81)]) [] =
      some ([0x81, 0x00, 0x01, 0xFD, 0xA4], 0x0202, 6, []) := by
  decide +kernel

/-- V-LG-2: ORA R241 -/
theorem test_ORA_V_LG_2 :
    stepped (flat 0x01 0x00 0x00 0xFD 0x24 0x0200 [(0x200, 0x09), (0x201, 0x80)]) [] =
      some ([0x81, 0x00, 0x00, 0xFD, 0xA4], 0x0202, 2, []) := by
  decide +kernel

/-- V-LG-3: EOR R242 -/
theorem test_EOR_V_LG_3 :
    stepped (flat 0x0F 0x00 0x00 0xFD 0x24 0x0200 [(0x200, 0x49), (0x201, 0xFF)]) [] =
      some ([0xF0, 0x00, 0x00, 0xFD, 0xA4], 0x0202, 2, []) := by
  decide +kernel

/-- V-LG-4: EOR R242 -/
theorem test_EOR_V_LG_4 :
    stepped (flat 0x5A 0x00 0x00 0xFD 0x24 0x0200 [(0x200, 0x49), (0x201, 0x5A)]) [] =
      some ([0x00, 0x00, 0x00, 0xFD, 0x26], 0x0202, 2, []) := by
  decide +kernel

/-- V-LG-6: BIT R243 - V from bit 6, N from bit 7, Z from A AND m; A unchanged -/
theorem test_BIT_V_LG_6 :
    stepped (flat 0x01 0x00 0x00 0xFD 0x24 0x0200 [(0x200, 0x24), (0x201, 0x10), (0x10, 0x41)]) [] =
      some ([0x01, 0x00, 0x00, 0xFD, 0x64], 0x0202, 3, []) := by
  decide +kernel

/-- V-LG-7: BIT R243 -/
theorem test_BIT_V_LG_7 :
    stepped (flat 0x00 0x00 0x00 0xFD 0x24 0x0200 [(0x200, 0x24), (0x201, 0x10), (0x10, 0xC0)]) [] =
      some ([0x00, 0x00, 0x00, 0xFD, 0xE6], 0x0202, 3, []) := by
  decide +kernel

/-- V-LG-9: ASL R245 -/
theorem test_ASL_V_LG_9 :
    stepped (flat 0x81 0x00 0x00 0xFD 0x24 0x0200 [(0x200, 0x0A)]) [] =
      some ([0x02, 0x00, 0x00, 0xFD, 0x25], 0x0201, 2, []) := by
  decide +kernel

/-- V-LG-10: ASL R245 -/
theorem test_ASL_V_LG_10 :
    stepped (flat 0x80 0x00 0x00 0xFD 0x24 0x0200 [(0x200, 0x0A)]) [] =
      some ([0x00, 0x00, 0x00, 0xFD, 0x27], 0x0201, 2, []) := by
  decide +kernel

/-- V-LG-12: LSR R246 -/
theorem test_LSR_V_LG_12 :
    stepped (flat 0x03 0x00 0x00 0xFD 0x24 0x0200 [(0x200, 0x4A)]) [] =
      some ([0x01, 0x00, 0x00, 0xFD, 0x25], 0x0201, 2, []) := by
  decide +kernel

/-- V-LG-13: LSR R246 - N always cleared -/
theorem test_LSR_V_LG_13 :
    stepped (flat 0x01 0x00 0x00 0xFD 0xA4 0x0200 [(0x200, 0x4A)]) [] =
      some ([0x00, 0x00, 0x00, 0xFD, 0x27], 0x0201, 2, []) := by
  decide +kernel

/-- V-LG-14: ROL R247 - C into bit 0 -/
theorem test_ROL_V_LG_14 :
    stepped (flat 0x40 0x00 0x00 0xFD 0x25 0x0200 [(0x200, 0x2A)]) [] =
      some ([0x81, 0x00, 0x00, 0xFD, 0xA4], 0x0201, 2, []) := by
  decide +kernel

/-- V-LG-15: ROL R247 -/
theorem test_ROL_V_LG_15 :
    stepped (flat 0x80 0x00 0x00 0xFD 0x24 0x0200 [(0x200, 0x2A)]) [] =
      some ([0x00, 0x00, 0x00, 0xFD, 0x27], 0x0201, 2, []) := by
  decide +kernel

/-- V-LG-16: ROR R248 - C into bit 7 -/
theorem test_ROR_V_LG_16 :
    stepped (flat 0x02 0x00 0x00 0xFD 0x25 0x0200 [(0x200, 0x6A)]) [] =
      some ([0x81, 0x00, 0x00, 0xFD, 0xA4], 0x0201, 2, []) := by
  decide +kernel

/-- V-LG-17: ROR R248 -/
theorem test_ROR_V_LG_17 :
    stepped (flat 0x01 0x00 0x00 0xFD 0x24 0x0200 [(0x200, 0x6A)]) [] =
      some ([0x00, 0x00, 0x00, 0xFD, 0x27], 0x0201, 2, []) := by
  decide +kernel

/-- V-CT-1: BCC R261 - D00 scenario 4 -/
theorem test_BCC_V_CT_1 :
    stepped (flat 0x00 0x00 0x00 0xFD 0x24 0x00FC [(0xFC, 0x90), (0xFD, 0x10)]) [] =
      some ([0x00, 0x00, 0x00, 0xFD, 0x24], 0x010E, 4, []) := by
  decide +kernel

/-- V-CT-2: BCC R261 - not taken: 2 -/
theorem test_BCC_V_CT_2 :
    stepped (flat 0x00 0x00 0x00 0xFD 0x25 0x00FC [(0xFC, 0x90), (0xFD, 0x10)]) [] =
      some ([0x00, 0x00, 0x00, 0xFD, 0x25], 0x00FE, 2, []) := by
  decide +kernel

/-- V-CT-10: BCS R262 -/
theorem test_BCS_V_CT_10 :
    stepped (flat 0x00 0x00 0x00 0xFD 0x25 0x0200 [(0x200, 0xB0), (0x201, 0x02)]) [] =
      some ([0x00, 0x00, 0x00, 0xFD, 0x25], 0x0204, 3, []) := by
  decide +kernel

/-- V-CT-11: BCS R262 - not taken -/
theorem test_BCS_V_CT_11 :
    stepped (flat 0x00 0x00 0x00 0xFD 0x24 0x0200 [(0x200, 0xB0), (0x201, 0x02)]) [] =
      some ([0x00, 0x00, 0x00, 0xFD, 0x24], 0x0202, 2, []) := by
  decide +kernel

/-- V-CT-3: BEQ R263 - branch to itself, same page: 3 -/
theorem test_BEQ_V_CT_3 :
    stepped (flat 0x00 0x00 0x00 0xFD 0x26 0x0300 [(0x300, 0xF0), (0x301, 0xFE)]) [] =
      some ([0x00, 0x00, 0x00, 0xFD, 0x26], 0x0300, 3, []) := by
  decide +kernel

/-- V-CT-5: BMI R265 - largest forward offset -/
theorem test_BMI_V_CT_5 :
    stepped (flat 0x00 0x00 0x00 0xFD 0xA4 0x0200 [(0x200, 0x30), (0x201, 0x7F)]) [] =
      some ([0x00, 0x00, 0x00, 0xFD, 0xA4], 0x0281, 3, []) := by
  decide +kernel

/-- V-CT-4: BNE R264 - backward, same page -/
theorem test_BNE_V_CT_4 :
    stepped (flat 0x00 0x00 0x00 0xFD 0x24 0x0205 [(0x205, 0xD0), (0x206, 0xFD)]) [] =
      some ([0x00, 0x00, 0x00, 0xFD, 0x24], 0x0204, 3, []) := by
  decide +kernel

/-- V-CT-12: BNE R264 - target wraps past $FFFF (mod 65536, decision D32); counts as a cross -/
theorem test_BNE_V_CT_12 :
    stepped (flat 0x00 0x00 0x00 0xFD 0x24 0xFFF0 [(0xFFF0, 0xD0), (0xFFF1, 0x7F)]) [] =
      some ([0x00, 0x00, 0x00, 0xFD, 0x24], 0x0071, 4, []) := by
  decide +kernel

/-- V-CT-6: BPL R266 - largest backward offset, crosses: 4 -/
theorem test_BPL_V_CT_6 :
    stepped (flat 0x00 0x00 0x00 0xFD 0x24 0x0200 [(0x200, 0x10), (0x201, 0x80)]) [] =
      some ([0x00, 0x00, 0x00, 0xFD, 0x24], 0x0182, 4, []) := by
  decide +kernel

/-- V-CT-7: BPL R266 -/
theorem test_BPL_V_CT_7 :
    stepped (flat 0x00 0x00 0x00 0xFD 0x24 0x0203 [(0x203, 0x10), (0x204, 0xFB)]) [] =
      some ([0x00, 0x00, 0x00, 0xFD, 0x24], 0x0200, 3, []) := by
  decide +kernel

/-- V-CT-9: BVC R267 - offset 0, taken: 3 -/
theorem test_BVC_V_CT_9 :
    stepped (flat 0x00 0x00 0x00 0xFD 0x24 0x0200 [(0x200, 0x50), (0x201, 0x00)]) [] =
      some ([0x00, 0x00, 0x00, 0xFD, 0x24], 0x0202, 3, []) := by
  decide +kernel

/-- V-CT-8: BVS R268 - cross measured from the next instruction $02F2 -/
theorem test_BVS_V_CT_8 :
    stepped (flat 0x00 0x00 0x00 0xFD 0x64 0x02F0 [(0x2F0, 0x70), (0x2F1, 0x10)]) [] =
      some ([0x00, 0x00, 0x00, 0xFD, 0x64], 0x0302, 4, []) := by
  decide +kernel

/-- V-CT-14: JMP R278 -/
theorem test_JMP_V_CT_14 :
    stepped (flat 0x00 0x00 0x00 0xFD 0x24 0x0200 [(0x200, 0x4C), (0x201, 0x00), (0x202, 0x80)]) [] =
      some ([0x00, 0x00, 0x00, 0xFD, 0x24], 0x8000, 3, []) := by
  decide +kernel

/-- V-CT-15: JMP R279 -/
theorem test_JMP_V_CT_15 :
    stepped (flat 0x00 0x00 0x00 0xFD 0x24 0x0200 [(0x200, 0x6C), (0x201, 0x00), (0x202, 0x03), (0x300, 0x34), (0x301, 0x12)]) [] =
      some ([0x00, 0x00, 0x00, 0xFD, 0x24], 0x1234, 5, []) := by
  decide +kernel

/-- V-CT-17: JSR R280 - pushes $8002, high byte first; both operand bytes read before the pushes -/
theorem test_JSR_V_CT_17 :
    stepped (flat 0x00 0x00 0x00 0xFD 0x24 0x8000 [(0x8000, 0x20), (0x8001, 0x00), (0x8002, 0x90)]) [0x01FC, 0x01FD] =
      some ([0x00, 0x00, 0x00, 0xFB, 0x24], 0x9000, 6, [0x02, 0x80]) := by
  decide +kernel

/-- V-CT-19: JSR R280 - stack wraps between the two pushes -/
theorem test_JSR_V_CT_19 :
    stepped (flat 0x00 0x00 0x00 0x00 0x24 0x0200 [(0x200, 0x20), (0x201, 0x34), (0x202, 0x12)]) [0x0100, 0x01FF] =
      some ([0x00, 0x00, 0x00, 0xFE, 0x24], 0x1234, 6, [0x02, 0x02]) := by
  decide +kernel

/-- V-CT-18: RTS R281 - pops $8002, adds 1 -/
theorem test_RTS_V_CT_18 :
    stepped (flat 0x00 0x00 0x00 0xFB 0x24 0x9000 [(0x9000, 0x60), (0x1FC, 0x02), (0x1FD, 0x80)]) [] =
      some ([0x00, 0x00, 0x00, 0xFD, 0x24], 0x8003, 6, []) := by
  decide +kernel

/-- V-CT-20: RTS R281 - $FFFF + 1 wraps to $0000 -/
theorem test_RTS_V_CT_20 :
    stepped (flat 0x00 0x00 0x00 0xFD 0x24 0x0200 [(0x200, 0x60), (0x1FE, 0xFF), (0x1FF, 0xFF)]) [] =
      some ([0x00, 0x00, 0x00, 0xFF, 0x24], 0x0000, 6, []) := by
  decide +kernel

/-- V-CT-21: BRK R282 - pushes $8012 and P with B=1 ($34); I set after the push -/
theorem test_BRK_V_CT_21 :
    stepped (flat 0x00 0x00 0x00 0xFD 0x24 0x8010 [(0x8010, 0x00), (0xFFFE, 0x00), (0xFFFF, 0x90)]) [0x01FB, 0x01FC, 0x01FD] =
      some ([0x00, 0x00, 0x00, 0xFA, 0x24], 0x9000, 7, [0x34, 0x12, 0x80]) := by
  decide +kernel

/-- V-CT-24: BRK R282 - return address $FFFF+2 wraps to $0001; vector high byte is the BRK byte itself -/
theorem test_BRK_V_CT_24 :
    stepped (flat 0x00 0x00 0x00 0xFD 0x20 0xFFFF [(0xFFFF, 0x00), (0xFFFE, 0x00)]) [0x01FB, 0x01FC] =
      some ([0x00, 0x00, 0x00, 0xFA, 0x24], 0x0000, 7, [0x30, 0x01]) := by
  decide +kernel

/-- V-CT-22: RTI R283 - returns to $8012, no +1; B dropped -/
theorem test_RTI_V_CT_22 :
    stepped (flat 0x00 0x00 0x00 0xFA 0x24 0x9000 [(0x9000, 0x40), (0x1FB, 0x34), (0x1FC, 0x12), (0x1FD, 0x80)]) [] =
      some ([0x00, 0x00, 0x00, 0xFD, 0x24], 0x8012, 6, []) := by
  decide +kernel

/-- V-CT-23: RTI R283 - pulled $FF becomes $EF -/
theorem test_RTI_V_CT_23 :
    stepped (flat 0x00 0x00 0x00 0xFA 0x24 0x0200 [(0x200, 0x40), (0x1FB, 0xFF), (0x1FC, 0x00), (0x1FD, 0x04)]) [] =
      some ([0x00, 0x00, 0x00, 0xFD, 0xEF], 0x0400, 6, []) := by
  decide +kernel

/-- V-CT-25: CLC R285 -/
theorem test_CLC_V_CT_25 :
    stepped (flat 0x00 0x00 0x00 0xFD 0xEF 0x0200 [(0x200, 0x18)]) [] =
      some ([0x00, 0x00, 0x00, 0xFD, 0xEE], 0x0201, 2, []) := by
  decide +kernel

/-- V-CT-26: SEC R286 -/
theorem test_SEC_V_CT_26 :
    stepped (flat 0x00 0x00 0x00 0xFD 0x24 0x0200 [(0x200, 0x38)]) [] =
      some ([0x00, 0x00, 0x00, 0xFD, 0x25], 0x0201, 2, []) := by
  decide +kernel

/-- V-CT-27: CLI R287 -/
theorem test_CLI_V_CT_27 :
    stepped (flat 0x00 0x00 0x00 0xFD 0x24 0x0200 [(0x200, 0x58)]) [] =
      some ([0x00, 0x00, 0x00, 0xFD, 0x20], 0x0201, 2, []) := by
  decide +kernel

/-- V-CT-28: SEI R288 -/
theorem test_SEI_V_CT_28 :
    stepped (flat 0x00 0x00 0x00 0xFD 0x20 0x0200 [(0x200, 0x78)]) [] =
      some ([0x00, 0x00, 0x00, 0xFD, 0x24], 0x0201, 2, []) := by
  decide +kernel

/-- V-CT-29: CLD R289 -/
theorem test_CLD_V_CT_29 :
    stepped (flat 0x00 0x00 0x00 0xFD 0x2C 0x0200 [(0x200, 0xD8)]) [] =
      some ([0x00, 0x00, 0x00, 0xFD, 0x24], 0x0201, 2, []) := by
  decide +kernel

/-- V-CT-30: SED R290 -/
theorem test_SED_V_CT_30 :
    stepped (flat 0x00 0x00 0x00 0xFD 0x24 0x0200 [(0x200, 0xF8)]) [] =
      some ([0x00, 0x00, 0x00, 0xFD, 0x2C], 0x0201, 2, []) := by
  decide +kernel

/-- V-CT-31: CLV R291 -/
theorem test_CLV_V_CT_31 :
    stepped (flat 0x00 0x00 0x00 0xFD 0x64 0x0200 [(0x200, 0xB8)]) [] =
      some ([0x00, 0x00, 0x00, 0xFD, 0x24], 0x0201, 2, []) := by
  decide +kernel

/-- V-CT-32: NOP R292 -/
theorem test_NOP_V_CT_32 :
    stepped (flat 0x00 0x00 0x00 0xFD 0x24 0x0200 [(0x200, 0xEA)]) [] =
      some ([0x00, 0x00, 0x00, 0xFD, 0x24], 0x0201, 2, []) := by
  decide +kernel

/-- V-UN-1: NOP R300 -/
theorem test_NOP_V_UN_1 :
    stepped (flat 0x00 0x00 0x00 0xFD 0x24 0x0200 [(0x200, 0x1A)]) [] =
      some ([0x00, 0x00, 0x00, 0xFD, 0x24], 0x0201, 2, []) := by
  decide +kernel

/-- V-UN-8: LAX R306 -/
theorem test_LAX_V_UN_8 :
    stepped (flat 0x00 0x00 0x00 0xFD 0x24 0x0200 [(0x200, 0xA7), (0x201, 0x10), (0x10, 0x80)]) [] =
      some ([0x80, 0x80, 0x00, 0xFD, 0xA4], 0x0202, 3, []) := by
  decide +kernel

/-- V-UN-9: LAX R306 - ZeroPage,Y wrap -/
theorem test_LAX_V_UN_9 :
    stepped (flat 0x01 0x02 0x20 0xFD 0x24 0x0200 [(0x200, 0xB7), (0x201, 0xF0), (0x10, 0x00)]) [] =
      some ([0x00, 0x00, 0x20, 0xFD, 0x26], 0x0202, 4, []) := by
  decide +kernel

/-- V-UN-12: SAX R307 - no flags -/
theorem test_SAX_V_UN_12 :
    stepped (flat 0xF0 0x3C 0x00 0xFD 0xA4 0x0200 [(0x200, 0x87), (0x201, 0x10)]) [0x0010] =
      some ([0xF0, 0x3C, 0x00, 0xFD, 0xA4], 0x0202, 3, [0x30]) := by
  decide +kernel

/-- V-UN-13: SAX R307 -/
theorem test_SAX_V_UN_13 :
    stepped (flat 0xFF 0x01 0x00 0xFD 0x24 0x0200 [(0x200, 0x83), (0x201, 0x10), (0x11, 0x00), (0x12, 0x03)]) [0x0300] =
      some ([0xFF, 0x01, 0x00, 0xFD, 0x24], 0x0202, 6, [0x01]) := by
  decide +kernel

/-- V-UN-14: DCM R308 - DEC then CMP: equal -/
theorem test_DCM_V_UN_14 :
    stepped (flat 0x10 0x00 0x00 0xFD 0x24 0x0200 [(0x200, 0xC7), (0x201, 0x10), (0x10, 0x11)]) [0x0010] =
      some ([0x10, 0x00, 0x00, 0xFD, 0x27], 0x0202, 5, [0x10]) := by
  decide +kernel

/-- V-UN-15: DCM R308 -/
theorem test_DCM_V_UN_15 :
    stepped (flat 0x00 0x00 0x00 0xFD 0x24 0x0200 [(0x200, 0xC7), (0x201, 0x10), (0x10, 0x00)]) [0x0010] =
      some ([0x00, 0x00, 0x00, 0xFD, 0x24], 0x0202, 5, [0xFF]) := by
  decide +kernel

/-- V-UN-17: ISB R309 -/
theorem test_ISB_V_UN_17 :
    stepped (flat 0x05 0x00 0x00 0xFD 0x25 0x0200 [(0x200, 0xE7), (0x201, 0x10), (0x10, 0x00)]) [0x0010] =
      some ([0x04, 0x00, 0x00, 0xFD, 0x25], 0x0202, 5, [0x01]) := by
  decide +kernel

/-- V-UN-18: ISB R309 - memory wraps to 0 -/
theorem test_ISB_V_UN_18 :
    stepped (flat 0x05 0x00 0x00 0xFD 0x25 0x0200 [(0x200, 0xE7), (0x201, 0x10), (0x10, 0xFF)]) [0x0010] =
      some ([0x05, 0x00, 0x00, 0xFD, 0x25], 0x0202, 5, [0x00]) := by
  decide +kernel

/-- The next state, if there is one. -/
def nextOf (r : Result) : Option State :=
  match r with
  | .next t => some t
  | _ => none

/-! ### Decimal arithmetic: V is any value, so the tests read A, C, N and Z only -/

/-- V-AR-16: 58 + 46 + 1 = 105. -/
theorem test_ADC_V_AR_16 : (adc 0x46 (flat 0x58 0 0 0xFD 0x2D 0x0200 [])).cpu.a = 0x05 := by decide +kernel
theorem test_ADC_V_AR_16_carry : flagOf .c (adc 0x46 (flat 0x58 0 0 0xFD 0x2D 0x0200 [])).cpu.p = true :=
  (flagOf_putFlag_other (by decide) _ _).trans (by decide +kernel)
/-- V-AR-18: 0 - 1 borrows; N is from the decimal result. -/
theorem test_SBC_V_AR_18 : (sbc 0x01 (flat 0x00 0 0 0xFD 0x2D 0x0200 [])).cpu.a = 0x99 := by decide +kernel
theorem test_SBC_V_AR_18_carry : flagOf .c (sbc 0x01 (flat 0x00 0 0 0xFD 0x2D 0x0200 [])).cpu.p = false :=
  (flagOf_putFlag_other (by decide) _ _).trans (by decide +kernel)
/-- V-UN-21: ISB obeys decimal mode. -/
theorem test_ISB_V_UN_21 : (match cpuStep (flat 0x10 0 0 0xFD 0x2D 0x0200 [(0x200, 0xE7), (0x201, 0x10), (0x10, 0x04)]) with
    | .next t => some (t.cpu.a, peek 0x0010 t, t.cpu.pc, t.cpu.cycles)
    | _ => none) = some (0x05, 0x05, 0x0202, 5) := by decide +kernel

/-! ### The exception, interrupts, reset, the cycle debt -/

/-- V-EX-2: an illegal byte is fetched alone and recorded; nothing is charged. -/
theorem test_invalid_V_EX_2 : let s := flat 0 0 0 0xFD 0x24 0x0200 [(0x200, 0xAB)]
    nextOf (cpuStep s) = some (s.setFault (some (.invalidInstruction 0xAB 0x0200))) := by decide +kernel

/-- V-EX-5: NMI entry. -/
theorem test_nmi_V_EX_5 :
    stepped (triggerNmi (flat 0 0 0 0xFD 0x21 0x8123 [(0xFFFB, 0x90)])) [0x01FD, 0x01FC, 0x01FB] =
      some ([0, 0, 0, 0xFA, 0x25], 0x9000, 7, [0x81, 0x23, 0x21]) := by decide +kernel

/-- V-EX-6: IRQ is dropped while I is set. -/
theorem test_irq_V_EX_6 : stepped (triggerIrq (flat 0 0 0 0xFD 0x24 0x0200 [(0x200, 0xEA)])) [] =
      some ([0, 0, 0, 0xFD, 0x24], 0x0201, 2, []) := by decide +kernel

/-- V-EX-7: IRQ entry charges 8. -/
theorem test_irq_V_EX_7 : stepped (triggerIrq (flat 0 0 0 0xFF 0x20 0x0200 [(0xFFFF, 0x03)])) [0x01FF, 0x01FE, 0x01FD] =
      some ([0, 0, 0, 0xFC, 0x24], 0x0300, 8, [0x02, 0x00, 0x20]) := by decide +kernel

/-- V-EX-13: the stack wraps inside the entry. -/
theorem test_nmi_V_EX_13 :
    stepped (triggerNmi (flat 0 0 0 0x01 0xE3 0xABCD [(0xFFFA, 0x34), (0xFFFB, 0x12)])) [0x0101, 0x0100, 0x01FF] =
      some ([0, 0, 0, 0xFE, 0xE7], 0x1234, 7, [0xAB, 0xCD, 0xE3]) := by decide +kernel

/-- V-EX-12: reset pushes nothing and keeps A, X, Y, S and the other flags. -/
theorem test_reset_V_EX_12 : let s := flat 1 2 3 0x80 0xC3 0x1234 [(0xFFFD, 0xC0)]
    cpuReset ((s.setCycles 5).setPending (some .irq)) = (s.setP 0xE7).setPc 0xC000 := by decide +kernel

/-- The debt table of §2.7: a NOP is 2, and 1 with `CPU_DEBT_BIAS` = 1; a tick with debt pays one. -/
theorem test_debt_default : (match cpuTick (flat 0 0 0 0xFD 0x24 0x0200 [(0x200, 0xEA)]) with
    | .next t => some (t.cpu.pc, t.cpu.cycles, nextOf (cpuTick t) == some (t.setCycles 1))
    | _ => none) = some (0x0201, 2, true) := by decide +kernel
theorem test_debt_bias : (match cpuTick { flat 0 0 0 0xFD 0x24 0x0200 [(0x200, 0xEA)] with
      cfg := { Config.default with bus := .flat, debtBias := .one } } with
    | .next t => some (t.cpu.pc, t.cpu.cycles)
    | _ => none) = some (0x0201, 1) := by decide +kernel

/-! ### The block: memory map, PPU registers, dots, DMA -/

/-- The cartridge of the vectors' §2.8: 4C 00 80 at offset 0, the three vectors $8000. -/
def cartridge : Config :=
  { Config.default with
    prgRom := [(0, 0x4C), (2, 0x80), (0x3FFB, 0x80), (0x3FFD, 0x80), (0x3FFF, 0x80)] }

/-- The block after power-on with that cartridge. -/
def block : State := { State.reset with cfg := cartridge, cpu := { Cpu.reset with pc := 0x8000 } }

/-- V-EX, R440: power-on with the cartridge loads `PC` from its reset vector. -/
theorem test_power_on_block : powerOn cartridge = block := by decide +kernel

/-- V-MM-1 and V-MM-2. -/
theorem test_memory_V_MM_1_2 : let t := memWrite 0x0801 0x5A block
    [peek 0x0001 t, peek 0x0801 t, peek 0x1801 t, t.ram.read 1, peek 0xBFFD t, peek 0xFFFD t] =
      [0x5A, 0x5A, 0x5A, 0x5A, 0x80, 0x80] := by decide +kernel
/-- V-MM-3 and V-MM-4. -/
theorem test_memory_V_MM_3_4 : let t := memWrite 0x6000 0x77 (memWrite 0x8000 0x12 block)
    [peek 0x8000 t, peek 0x6000 t, peek 0x4015 t] = [0x4C, 0x77, 0x00] := by decide +kernel
/-- V-MM-5: PPUADDR through mirrors of the port. -/
theorem test_port_V_MM_5 : let u := (memWrite 0x2A06 0x08 (memWrite 0x3FFE 0x21 block)).ppu
    (u.v, u.t, u.w) = (0x2108, 0x2108, false) := by decide +kernel

/-- V-PR-1: PPUSCROLL. -/
theorem test_scroll_V_PR_1 : let s1 := memWrite 0x2005 0x7D block
    let s2 := memWrite 0x2005 0x5E s1
    (s1.ppu.t, s1.ppu.x, s1.ppu.w, s2.ppu.t, s2.ppu.x, s2.ppu.w, s2.ppu.v) =
      (0x000F, 5, true, 0x616F, 5, false, 0) := by decide +kernel
/-- V-PR-2: PPUADDR. -/
theorem test_address_V_PR_2 : let s1 := memWrite 0x2006 0xFF (block.setPpu { block.ppu with t := 0x7FFF })
    let s2 := memWrite 0x2006 0x10 s1
    (s1.ppu.t, s1.ppu.v, s2.ppu.t, s2.ppu.v) = (0x3FFF, 0, 0x3F10, 0x3F10) := by decide +kernel
/-- V-PR-3: PPUCTRL. -/
theorem test_ctrl_V_PR_3 : (memWrite 0x2000 0x01 (block.setPpu { block.ppu with t := 0x7FFF })).ppu.t = 0x77FF := by
  decide +kernel
/-- V-PR-4: PPUSTATUS. -/
theorem test_status_V_PR_4 :
    let r := memRead 0x2002 (block.setPpu { block.ppu with status := 0xE0, bufferData := 0xBF, w := true })
    (r.1, r.2.ppu.status, r.2.ppu.w, peek 0x2002 r.2) = (0xFF, 0x60, false, 0x7F) := by decide +kernel
/-- V-PR-5: the read buffer (vertical mirroring). -/
theorem test_buffer_V_PR_5 : let s := { block with
      cfg := { cartridge with mirroring := .vertical }
      ppu := { Ppu.reset with vram := [(0, 0x11), (1, 0x22)], bufferData := 0x99 } }
    let r1 := memRead 0x2007 (memWrite 0x2006 0x00 (memWrite 0x2006 0x20 s))
    let r2 := memRead 0x2007 r1.2
    let r3 := memRead 0x2007 r2.2
    (r1.1, r2.1, r3.1, r3.2.ppu.v, r3.2.ppu.bufferData) = (0x99, 0x11, 0x22, 0x2003, 0) := by decide +kernel
/-- V-PR-6: the palette is read at once. -/
theorem test_palette_V_PR_6 :
    let r := memRead 0x2007 (block.setPpu { block.ppu with palette := [(1, 0x2A)], bufferData := 0x99, v := 0x3F01 })
    (r.1, r.2.ppu.bufferData, r.2.ppu.v) = (0x2A, 0x2A, 0x3F02) := by decide +kernel
/-- V-PR-9: `v` wraps. -/
theorem test_data_V_PR_9 : let u := (memWrite 0x2007 0x12 (block.setPpu { block.ppu with v := 0x7FFF })).ppu
    (u.palette, u.v) = ([(0x1F, 0x12)], 0) := by decide +kernel
/-- V-PR-10 and V-PR-11: the nametables under both mirrorings. -/
theorem test_nametables_V_PR_10 :
    let s := ppuWrite 0x2C00 4 (ppuWrite 0x2800 3 (ppuWrite 0x2400 2 (ppuWrite 0x2000 1
      { block with cfg := { cartridge with mirroring := .vertical } })))
    (s.ppu.vram, ppuRead 0x3000 s) = ([(0, 3), (0x400, 4)], 3) := by decide +kernel
theorem test_nametables_V_PR_11 :
    let s := ppuWrite 0x2C00 4 (ppuWrite 0x2800 3 (ppuWrite 0x2400 2 (ppuWrite 0x2000 1 block)))
    (s.ppu.vram, ppuRead 0x3000 s) = ([(0, 2), (0x400, 4)], 2) := by decide +kernel
/-- V-PR-12: OAMDATA. -/
theorem test_oam_V_PR_12 : let s := memWrite 0x2004 0xCD (memWrite 0x2004 0xAB (memWrite 0x2003 0xFF block))
    (s.ppu.oam, s.ppu.oamAddr, peek 0x2004 s) = ([(0, 0xCD), (0xFF, 0xAB)], 1, 0) := by decide +kernel

/-- V-PPU-1: dot (241, 1) sets VBLANK, and with `ctrl[7]` raises NMI; dot (261, 1) clears it. -/
theorem test_vblank_set : (ppuTick (block.setPpu { block.ppu with scanline := 241, dot := 1 })) =
    block.setPpu { block.ppu with scanline := 241, dot := 2, status := 0x80 } := by decide +kernel
theorem test_vblank_nmi :
    (ppuTick (block.setPpu { block.ppu with scanline := 241, dot := 1, ctrl := 0x80 })).cpu.pending = some .nmi := by
  decide +kernel
theorem test_vblank_clear :
    (ppuTick (block.setPpu { block.ppu with scanline := 261, dot := 1, status := 0xE0 })).ppu.status = 0 := by
  decide +kernel
/-- V-PPU-2: the skipped dot. -/
theorem test_skipped_dot : let s := block.setPpu { block.ppu with scanline := 261, dot := 339, oddFrame := true, frame := 1 }
    let on := (ppuTick (s.setPpu { s.ppu with mask := 0x08 })).ppu
    let off := (ppuTick s).ppu
    (on.scanline, on.dot, on.frame, on.oddFrame, off.scanline, off.dot) = (0, 0, 2, false, 261, 340) := by decide +kernel
/-- V-PPU-4: the backdrop, with rendering off. -/
theorem test_backdrop_V_PPU_4 :
    (ppuTick (block.setPpu { block.ppu with dot := 256, scanline := 239, palette := [(0, 0x21)] })).ppu.framebuffer =
      [(61439, 0x21)] := by decide +kernel

/-- V-BUS-1: bus tick 0 is a dot and a CPU step (`JMP $8000`, 3 cycles). -/
theorem test_bus_V_BUS_1 : nextOf (step block) = some { block with
    cpu := { block.cpu with cycles := 3 }, ppu := { block.ppu with dot := 1 }, tickCount := 1 } := by decide +kernel

/-- V-DMA-1, its first two transfers and the debt. -/
theorem test_dma_V_DMA_1 : let s := { block with
      ram := [(0x200, 0x77), (0x201, 0x01), (0x2FF, 0xFF)], ppu := { Ppu.reset with oamAddr := 0x10 } }
    let t := memWrite 0x4014 0x02 s
    (t.ppu.oam, t.ppu.oamAddr, t.cpu.cycles) = ([(0x0F, 0xFF), (0x10, 0x77), (0x11, 0x01)], 0x10, 513) := by
  decide +kernel

/-! ### The interface: a placed instruction runs in the very next step; the disassembly -/

/-- Three lengths, placed at reset. -/
theorem test_fetch_word_runs : (match step (State.reset.withFetchWord 16 0x5AA9) with
    | .next t => some t.cpu.a
    | _ => none) = some 0x5A := by decide +kernel
theorem test_fetch_word_jumps : (match step (State.reset.withFetchWord 24 0x12344C) with
    | .next t => some t.cpu.pc
    | _ => none) = some 0x1234 := by decide +kernel
/-- R129 and R457: the text of the instruction at `PC`, also of one that ends just below the PPU registers, and none for
an illegal byte. -/
theorem test_inst_text : hostInst (flat 0 0 0 0xFD 0x24 0x0200 [(0x200, 0xB5), (0x201, 0x10)]) = some "LDA $10,X" ∧
    hostInst ({ block with ram := [(0x7FF, 0xEA)] }.setPc 0x1FFF) = some "NOP" ∧
    hostInst ({ block with ram := [(0x7FE, 0xA9), (0x7FF, 0x10)] }.setPc 0x1FFE) = some "LDA #$10" ∧
    hostInst (flat 0 0 0 0xFD 0x24 0x0200 [(0x200, 0x02)]) = none := by decide +kernel

/-- R140: what `step()` returns. A taken branch over a page (D00 scenario 4), LDA Absolute,X over a page, the entries. -/
theorem test_step_returns :
    (hostStep (flat 0 0 0 0xFD 0x24 0x00FC [(0xFC, 0x90), (0xFD, 0x10)])).2 = some 4 ∧
    (hostStep (flat 0 0x01 0 0xFD 0x24 0x0200 [(0x200, 0xBD), (0x201, 0xFF), (0x202, 0x03)])).2 = some 5 ∧
    (hostStep (triggerNmi (flat 0 0 0 0xFD 0x24 0x0200 []))).2 = some 7 ∧
    (hostStep (triggerIrq (flat 0 0 0 0xFD 0x20 0x0200 []))).2 = some 8 ∧
    (hostStep (flat 0 0 0 0xFD 0x24 0x0200 [(0x200, 0x02)])).2 = none := by decide +kernel

/-- R140, R395: a store that starts a DMA returns its own 4 cycles, while the debt takes the 513 too (V-BUS-2). -/
theorem test_step_returns_dma : let r := hostStep ({ block with ram := [(0x200, 0x8D), (0x201, 0x14), (0x202, 0x40)] }.setPc 0x200)
    (r.2, (nextOf r.1).map fun t => t.cpu.cycles) = (some 4, some 517) := by decide +kernel

/-! ### Witnesses: for each statement with hypotheses, concrete data that meet them -/

/-- A program in internal RAM at $0200 of the block, the PPU at the given place. -/
def inRam (cells : List (Nat × Byte)) (line dot : Nat) : State :=
  { block with
    cpu := { Cpu.reset with pc := 0x0200 }
    ppu := { Ppu.reset with scanline := line, dot := dot }
    ram := cells.foldl (fun m c => m.write c.1 c.2) [] }

/-- The block with the PPU at the given place, rendering on. -/
def rendered (line dot : Nat) : State := block.setPpu { Ppu.reset with mask := 0x18, scanline := line, dot := dot, v := 0x73BF }

/-- The block with the flags `p`. -/
def withStatus (p : Byte) : State := block.setP p

theorem witness_DecodeInvertsEncode : (Instr.bcc (-128)).wf = true ∧ (Instr.bvs 127).wf = true ∧
    (Instr.ldaAbs 0xFFFF).wf = true ∧ (Instr.nopFA).wf = true := by decide

theorem witness_EncodeInvertsDecode : decode [0xEA] = .ok (.nop, []) ∧ decode [0x80, 0xFF, 0x02] = .ok (.nop80 0xFF, [0x02]) ∧
    decode [0x6C, 0xFF, 0x02] = .ok (.jmpInd 0x02FF, []) ∧ decode [0xF0, 0x80] = .ok (.beq (-128), []) ∧
    decode [0xF0, 0x7F] = .ok (.beq 127, []) := by decide +kernel

theorem witness_IllegalBytes : instrOf 0x02 0 0 = none ∧ instrOf 0xF2 0xFF 0xFF = none ∧ instrOf 0xEB 0 0 ≠ none := by
  decide

/-- One, two and three bytes, in the block. -/
theorem witness_StepRunsDecodedInstruction_block :
    (let s := inRam [(0x200, 0xEA)] 0 0
     RunsInstruction s ∧ Instr.nop.wf = true ∧ encode .nop = [(memRead (cpuSees s).cpu.pc (cpuSees s)).1]) ∧
    (let s := inRam [(0x200, 0x90), (0x201, 0x80)] 241 1
     let u := cpuSees s
     let r0 := memRead u.cpu.pc u
     RunsInstruction s ∧ (Instr.bcc (-128)).wf = true ∧ encode (.bcc (-128)) = [r0.1, (memRead (u.cpu.pc + 1) r0.2).1]) ∧
    (let u := cpuSees block
     let r0 := memRead u.cpu.pc u
     let r1 := memRead (u.cpu.pc + 1) r0.2
     RunsInstruction block ∧ (Instr.jmpAbs 0x8000).wf = true ∧
       encode (.jmpAbs 0x8000) = [r0.1, r1.1, (memRead (u.cpu.pc + 2) r1.2).1]) :=
  ⟨⟨⟨by decide +kernel, by decide +kernel, by decide +kernel, by decide +kernel⟩, by decide, by decide +kernel⟩,
    ⟨⟨by decide +kernel, by decide +kernel, by decide +kernel, by decide +kernel⟩, by decide, by decide +kernel⟩,
    ⟨by decide +kernel, by decide +kernel, by decide +kernel, by decide +kernel⟩, by decide, by decide +kernel⟩

/-- The same in the stand-alone CPU, at the top of the address space too. -/
theorem witness_StepRunsDecodedInstruction_flat :
    let s := flat 0 0 0 0xFD 0x24 0xFFFF [(0xFFFF, 0xAD), (0, 0x34), (1, 0x12)]
    let u := cpuSees s
    let r0 := memRead u.cpu.pc u
    let r1 := memRead (u.cpu.pc + 1) r0.2
    RunsInstruction s ∧ (Instr.ldaAbs 0x1234).wf = true ∧
      encode (.ldaAbs 0x1234) = [r0.1, r1.1, (memRead (u.cpu.pc + 2) r1.2).1] :=
  ⟨⟨by decide +kernel, by decide +kernel, by decide +kernel, by decide +kernel⟩, by decide, by decide +kernel⟩

theorem witness_IllegalByteRaisesInvalidInstruction : let s := inRam [(0x200, 0x02)] 0 0
    RunsInstruction s ∧ instrOf (memRead (cpuSees s).cpu.pc (cpuSees s)).1 0 0 = none :=
  ⟨⟨by decide +kernel, by decide +kernel, by decide +kernel, by decide +kernel⟩, by decide +kernel⟩

/-- A faulted CPU, on both buses. -/
def faulted (s : State) : State := s.setFault (some (.invalidInstruction 0x02 0x0200))

theorem witness_FaultedCpuIsInert : (faulted block).cpu.fault ≠ none ∧ (faulted block).cfg.bus = .system ∧
    (faulted (flat 0 0 0 0 0 0 [])).cpu.fault ≠ none ∧ (faulted (flat 0 0 0 0 0 0 [])).cfg.bus = .flat := by decide

theorem witness_CpuTicksEveryThirdBusTick : let s := block.setTickCount 1
    let t := (block.setTickCount 3).setCycles 2
    s.cfg.bus = .system ∧ s.tickCount % 3 ≠ 0 ∧
    t.cfg.bus = .system ∧ t.tickCount % 3 = 0 ∧ t.cpu.fault = none ∧ 0 < t.cpu.cycles := by decide

theorem witness_DebtIsPaidInThreeTicksPerCycle : let s := (block.setTickCount 6).setCycles 2
    s.cfg.bus = .system ∧ s.tickCount % 3 = 0 ∧ s.cpu.fault = none ∧ s.cpu.cycles = 2 := by decide

theorem witness_LoadsComplete : (Instr.ldaIndY 0xFF).row.mnemonic = .lda ∧ (Instr.ldxImm 0).row.mnemonic = .ldx ∧
    (Instr.ldyAbsX 0xFFFF).row.mnemonic = .ldy ∧ (Instr.laxAbsY 0x2002).row.mnemonic = .lax := by decide

theorem witness_StoresComplete : ((Instr.staAbsX 0x4014).row.mnemonic = .sta ∧ block.cpu.a = block.cpu.a) ∧
    (Instr.stxZpY 0xFF).row.mnemonic = .stx ∧ (Instr.styZpX 0).row.mnemonic = .sty ∧
    (Instr.saxIndX 0xFF).row.mnemonic = .sax := by decide

theorem witness_BinaryAdcSbcComplete : ¬ Decimal (withStatus 0x24) ∧
    ¬ Decimal ({ flat 0 0 0 0 0x2D 0 [] with cfg := { Config.default with decimalEnabled := false } }) ∧
    (Instr.adcAbsX 0xFFFF).row.mnemonic = .adc ∧ (Instr.sbcImmEB 0).row.mnemonic = .sbc :=
  ⟨fun h => absurd h.1 (by decide), fun h => absurd h.2 (by decide), rfl, rfl⟩

theorem witness_DecimalAdcSbcComplete : Decimal (flat 0x99 0 0 0xFD 0x2D 0 []) ∧ (Instr.adcImm 0x99).row.mnemonic = .adc ∧
    (Instr.sbcIndY 0).row.mnemonic = .sbc ∧ IsBcd 0x99 ∧ IsBcd 0x00 ∧ (readOperand (.adcImm 0x99) block).isSome = true :=
  ⟨⟨by decide, by decide⟩, rfl, rfl, ⟨by decide, by decide⟩, ⟨by decide, by decide⟩, rfl⟩

theorem witness_ComparesComplete : (Instr.cmpIndX 0xFF).row.mnemonic = .cmp ∧ (Instr.cpxAbs 0xFFFF).row.mnemonic = .cpx ∧
    (Instr.cpyImm 0).row.mnemonic = .cpy ∧ block.cpu.x = block.cpu.x := by decide

theorem witness_IncrementsComplete : ((Instr.incAbsX 0xFFFF).row.mnemonic = .inc ∧ (1 : Byte) = 1) ∧
    (Instr.decZpX 0xFF).row.mnemonic = .dec ∧ (0xFF : Byte) = 0xFF := by decide

theorem witness_LogicComplete : (Instr.andIndY 0xFF).row.mnemonic = .and ∧ (Instr.oraImm 0).row.mnemonic = .ora ∧
    (Instr.eorAbsY 0xFFFF).row.mnemonic = .eor := by decide

theorem witness_BitComplete : (Instr.bitZp 0xFF).row.mnemonic = .bit ∧ (Instr.bitAbs 0x2002).row.mnemonic = .bit := by decide

theorem witness_ShiftsComplete :
    (memOperand (.aslAbsX 0xFFFF) = some (.absX 0xFFFF) ∧ (readAt (.absX 0xFFFF) block).value = 0x80 ∧
      shiftRule .asl false 0x80 = some (0, true) ∧ shiftRule .rol true 0x80 = some (1, true) ∧
      shiftRule .lsr true 0x01 = some (0, true) ∧ shiftRule .ror true 0x01 = some (128, true)) ∧
    (Instr.rorAcc.row.mode = .accumulator ∧ shiftRule Instr.rorAcc.row.mnemonic true 0xFF = some (255, true)) ∧
    (shiftRule Instr.lsrAcc.row.mnemonic false 0).isSome = true := by decide +kernel

theorem witness_BranchesComplete : branchOf (.bcc (-128)) = some (.c, false, -128) ∧ branchOf (.bcs 127) = some (.c, true, 127) ∧
    branchOf (.beq 0) = some (.z, true, 0) ∧ branchOf (.bne (-1)) = some (.z, false, -1) ∧
    branchOf (.bmi 1) = some (.n, true, 1) ∧ branchOf (.bpl 127) = some (.n, false, 127) ∧
    branchOf (.bvc (-128)) = some (.v, false, -128) ∧ branchOf (.bvs 0) = some (.v, true, 0) ∧
    flagOf .c block.cpu.p = false ∧ flagOf .n block.cpu.p ≠ true := by decide

theorem witness_FlagInstructionsAndNopsComplete : flagWriteOf .clc = some (.c, false) ∧ flagWriteOf .sec = some (.c, true) ∧
    flagWriteOf .cli = some (.i, false) ∧ flagWriteOf .sei = some (.i, true) ∧ flagWriteOf .cld = some (.d, false) ∧
    flagWriteOf .sed = some (.d, true) ∧ flagWriteOf .clv = some (.v, false) ∧
    (Instr.nopFC 0xFFFF).row.mnemonic = .nop ∧ memOperand (.nopFC 0xFFFF) = some (.absX 0xFFFF) ∧
    Instr.nop.row.mnemonic = .nop ∧ (Instr.nop80 0).row.mnemonic = .nop := by decide

theorem witness_DcmAndIsbComplete : (Instr.dcmIndY 0xFF).row.mnemonic = .dcm ∧ (Instr.isbAbsX 0xFFFF).row.mnemonic = .isb ∧
    ¬ Decimal (withStatus 0x24) ∧ Decimal (withStatus 0x2C) ∧ IsBcd 0x00 ∧ IsBcd 0x99 :=
  ⟨rfl, rfl, fun h => absurd h.1 (by decide), ⟨by decide, by decide⟩, ⟨by decide, by decide⟩, by decide, by decide⟩

theorem witness_FlagsKeptByOtherInstructions : (∃ t, exec (.adcImm 0xFF) block = .next t) ∧
    (∃ t, exec (.staAbs 0x4014) block = .next t) ∧ ∃ t, exec .plp block = .next t := ⟨⟨_, rfl⟩, ⟨_, rfl⟩, _, rfl⟩

theorem witness_RegistersKeptByOtherInstructions : (∃ t, exec .aslAcc block = .next t) ∧ Reg.x ∉ regsWritten .asl ∧
    (Instr.aslAcc.row.mode = .accumulator → Reg.x ≠ .a) ∧ (∃ t, exec (.aslZp 0) block = .next t) ∧
    Reg.a ∉ regsWritten .asl ∧ ((Instr.aslZp 0).row.mode = .accumulator → Reg.a ≠ .a) :=
  ⟨⟨_, rfl⟩, by decide, by decide, ⟨_, rfl⟩, by decide, by decide⟩

/-- A store to $4014 and to the cell before it, a page-crossing row on a crossing and not, branches on both values of
a flag with offsets at both ends, and a row that is none of these. -/
theorem witness_InstructionsLeaveTheRestAlone :
    ((∃ t, exec (.staAbs 0x4014) block = .next t) ∧ (∃ t, exec (.staAbs 0x4013) block = .next t) ∧
      (∃ t, exec (.ldaAbsX 0x40FF) (block.setX 1) = .next t) ∧ (∃ t, exec (.beq 0x7F) block = .next t) ∧
      ∃ t, exec .brk block = .next t) ∧
    (block.cfg.bus = .system ∧ storesToOperand (Instr.staAbs 0x4014).row.mnemonic = true ∧
      memOperand (.staAbs 0x4014) = some (.abs 0x4014) ∧ (resolve (.abs 0x4014) block).ea = 0x4014) ∧
    (memOperand (.staAbs 0x4013) = some (.abs 0x4013) ∧ (resolve (.abs 0x4013) block).ea ≠ 0x4014) ∧
    (memOperand (.ldaAbsX 0x40FF) = some (.absX 0x40FF) ∧ (resolve (.absX 0x40FF) (block.setX 1)).crossed = true ∧
      (resolve (.absX 0x40FF) block).crossed = false) ∧
    (branchOf (.beq 0x7F) = some (.z, true, 0x7F) ∧ branchOf (.bne (-0x80)) = some (.z, false, -0x80)) ∧
    (memOperand .brk = none ∧ branchOf .brk = none) ∧
    Mnemonic.brk ≠ .adc ∧ Mnemonic.brk ≠ .sbc ∧ Mnemonic.brk ≠ .isb :=
  ⟨⟨⟨_, rfl⟩, ⟨_, rfl⟩, ⟨_, rfl⟩, ⟨_, rfl⟩, _, rfl⟩, ⟨rfl, rfl, rfl, rfl⟩, ⟨rfl, by decide⟩, ⟨rfl, by decide, by decide⟩,
    ⟨rfl, rfl⟩, ⟨rfl, rfl⟩, by decide, by decide, by decide⟩

theorem witness_MemoryKeptByInstructionsThatStoreNothing : (∃ t, exec (.ldaAbs 0x2002) block = .next t) ∧
    storesByte (.ldaAbs 0x2002) = false ∧ storesByte .rorAcc = false ∧ plainCell block.cfg 0x0000 = true ∧
    plainCell block.cfg 0xFFFF = true ∧ plainCell block.cfg 0x4013 = true := ⟨⟨_, rfl⟩, by decide, by decide, by decide +kernel⟩

theorem witness_MemoryKeptBesideTheStoredByte : storesToOperand (Instr.incAbs 0x07FF).row.mnemonic = true ∧
    memOperand (.incAbs 0x07FF) = some (.abs 0x07FF) ∧ (∃ t, exec (.incAbs 0x07FF) block = .next t) ∧
    (plainCell block.cfg 0x0000 = true ∧ route block.cfg 0x0000 ≠ route block.cfg (resolve (.abs 0x07FF) block).ea) ∧
    plainCell block.cfg (resolve (.abs 0x07FF) block).ea = true :=
  ⟨rfl, rfl, ⟨_, rfl⟩, by decide +kernel, by decide +kernel⟩

theorem witness_MemoryKeptBesideThePushedBytes : 0 < pushCount .brk ∧ 0 < pushCount .jsr ∧ 0 < pushCount .pha ∧
    (∃ t, exec .brk (block.setS 0x01) = .next t) ∧ plainCell block.cfg 0x01FE = true ∧
    ∀ k, k < 3 → route block.cfg 0x01FE ≠ route block.cfg (word 1 ((block.setS 0x01).cpu.s - BitVec.ofNat 8 k)) :=
  ⟨by decide, by decide, by decide, ⟨_, rfl⟩, by decide, by decide +kernel⟩

/-- The block with two banks and no PRG-RAM. -/
def otherCartridge : State := { block with cfg := { cartridge with prgBanks := .two, hasPrgRam := false } }

/-- Each row of the bus at both its ends, on both buses and with both cartridges. -/
theorem witness_BusRouting : (flat 0 0 0 0 0 0 []).cfg.bus = .flat ∧ block.cfg.bus = .system ∧
    (0x1FFF : Addr).toNat < 0x2000 ∧ (0x2000 ≤ (0x2000 : Addr).toNat ∧ (0x3FFF : Addr).toNat < 0x4000) ∧
    (0x4000 ≤ (0x4000 : Addr).toNat ∧ (0x5FFF : Addr).toNat < 0x6000 ∧ (0x5FFF : Addr).toNat ≠ 0x4014) ∧
    (0x6000 ≤ (0x6000 : Addr).toNat ∧ (0x7FFF : Addr).toNat < 0x8000) ∧ block.cfg.hasPrgRam = true ∧
    otherCartridge.cfg.hasPrgRam = false ∧ 0x8000 ≤ (0x8000 : Addr).toNat ∧ otherCartridge.cfg.prgBanks = .two ∧
    block.cfg.prgBanks = .one := by decide

theorem witness_RamMirrors : block.cfg.bus = .system ∧ block.ram.wf = true ∧ (0x7FF : Addr).toNat < 0x800 ∧ 3 < 4 ∧
    0x2000 ≤ (0x2000 : Addr).toNat ∧ (0x3FFF : Addr).toNat < 0x4000 := by decide

/-- A read of $2002 and one of $3FFF do change the state; a write of $1FFF is not of the port. -/
theorem witness_OnlyTwoPortsHaveReadEffects : (memRead 0x2002 (block.setPpu { Ppu.reset with w := true })).2 ≠
      block.setPpu { Ppu.reset with w := true } ∧ (memRead 0x3FFF block).2 ≠ block ∧
    ((0x2002 : Addr).toNat % 8 = 2 ∧ (block.setPpu { Ppu.reset with w := true }).ppu.w = true) ∧
    (0x3FFF : Addr).toNat % 8 = 7 ∧
    ¬ (block.cfg.bus = .system ∧ (0x2000 ≤ (0x1FFF : Addr).toNat ∧ (0x1FFF : Addr).toNat < 0x4000 ∨
      (0x1FFF : Addr).toNat = 0x4014)) ∧ plainCell block.cfg 0x07FE = true ∧
    route block.cfg 0x07FE ≠ route block.cfg 0x1FFF := by decide +kernel

theorem witness_inv : block.Inv ∧ (flat 0 0 0 0xFD 0x24 0x0200 [(0xFFFF, 1)]).Inv ∧ otherCartridge.Inv := by decide +kernel

theorem witness_ReadGivesTheLastWrite : block.Inv ∧ plainCell block.cfg 0x1801 = true ∧
    (∃ i, route block.cfg 0x0001 = .ram i ∨ route block.cfg 0x0001 = .prgRam i ∨ route block.cfg 0x0001 = .flat i) ∧
    route block.cfg 0x1801 = route block.cfg 0x0001 ∧ plainCell block.cfg 0x6000 = true ∧
    route block.cfg 0x6000 ≠ route block.cfg 0x0001 :=
  ⟨by decide +kernel, by decide, ⟨1, by decide⟩, by decide, by decide, by decide⟩

theorem witness_OamDmaCopiesThePage : block.cfg.bus = .system ∧ block.Inv ∧
    ¬ (0x20 ≤ (0x1F : Byte).toNat ∧ (0x1F : Byte).toNat < 0x40) ∧ ¬ (0x20 ≤ (0x40 : Byte).toNat ∧ (0x40 : Byte).toNat < 0x40) ∧
    ¬ (0x20 ≤ (0xFF : Byte).toNat ∧ (0xFF : Byte).toNat < 0x40) := by decide +kernel

theorem witness_PushThenPopRestores : (block.setS 0x00).Inv ∧ (block.setS 0xFF).Inv ∧
    (∃ t u, exec .pha (block.setS 0x00) = .next t ∧ exec .pla t = .next u) ∧
    ∃ t u, exec .php (block.setS 0x00) = .next t ∧ exec .plp t = .next u :=
  ⟨by decide +kernel, by decide +kernel, ⟨_, _, rfl, rfl⟩, _, _, rfl, rfl⟩

/-- The subroutine changed A. -/
theorem witness_JsrThenRtsReturns : (block.setS 0x00).Inv ∧
    ∃ t u, exec (.jsr 0x9000) (block.setS 0x00) = .next t ∧ u = t.setA 7 ∧ u.cpu.s = t.cpu.s ∧
      peek (word 1 (t.cpu.s + 1)) u = peek (word 1 (t.cpu.s + 1)) t ∧
      peek (word 1 (t.cpu.s + 2)) u = peek (word 1 (t.cpu.s + 2)) t :=
  ⟨by decide +kernel, _, _, rfl, rfl, rfl, rfl, rfl⟩

theorem witness_InterruptEntrySavesAndVectors : let s := block.setPending (some .irq)
    let t := block.setPpu { Ppu.reset with scanline := 241, dot := 1, ctrl := 0x80 }
    (cpuTurn s = true ∧ (cpuSees s).cpu.fault = none ∧ (cpuSees s).cpu.cycles = 0 ∧ (cpuSees s).cpu.pending = some .irq) ∧
    (cpuTurn t = true ∧ (cpuSees t).cpu.fault = none ∧ (cpuSees t).cpu.cycles = 0 ∧
      (cpuSees t).cpu.pending = some .nmi) := by decide +kernel

theorem witness_InterruptTriggers : flagOf .i block.cpu.p = true ∧ flagOf .i (withStatus 0x20).cpu.p = false ∧
    (withStatus 0x20).cpu.pending ≠ some .nmi ∧ ((withStatus 0x20).setPending (some .nmi)).cpu.pending = some .nmi := by decide

theorem witness_RtiResumes : let s := block.setPending (some .nmi)
    s.Inv ∧ s.cpu.fault = none ∧ s.cpu.pending = some .nmi ∧
    (∃ t u, cpuStep s = .next t ∧ u = t.setA 7 ∧ u.cpu.s = t.cpu.s ∧
      ∀ k : Byte, k = 1 ∨ k = 2 ∨ k = 3 → peek (word 1 (t.cpu.s + k)) u = peek (word 1 (t.cpu.s + k)) t) ∧
    ∃ t u, exec .brk s = .next t ∧ u = t.setA 7 ∧ u.cpu.s = t.cpu.s ∧
      ∀ k : Byte, k = 1 ∨ k = 2 ∨ k = 3 → peek (word 1 (t.cpu.s + k)) u = peek (word 1 (t.cpu.s + k)) t :=
  ⟨by decide +kernel, rfl, rfl, ⟨_, _, rfl, rfl, rfl, by rintro k (rfl | rfl | rfl) <;> rfl⟩, _, _, rfl, rfl, rfl,
    by rintro k (rfl | rfl | rfl) <;> rfl⟩

theorem witness_PowerOnMeetsTheInvariant : cartridge.wf = true ∧ otherCartridge.cfg.wf = true := by decide +kernel

theorem witness_StepKeepsTheInvariant : block.Inv ∧ ∃ t, step block = .next t :=
  ⟨by decide +kernel, _, rfl⟩

theorem witness_StatusBitsUAndBHold : flagOf .u block.cpu.p = true ∧ flagOf .b block.cpu.p = false ∧
    (∃ t, step block = .next t) ∧ (∃ t i, exec i block = .next t ∧ i = .plp) ∧ (∃ t, t = systemReset block) ∧
    (∃ t, cpuStep block = .next t) ∧ ∃ t, exec .rti (withStatus 0) = .next t :=
  ⟨by decide, by decide, ⟨_, rfl⟩, ⟨_, _, rfl, rfl⟩, ⟨_, rfl⟩, ⟨_, rfl⟩, _, rfl⟩

theorem witness_StandAloneCpuHasNoPpu : let s := flat 0 0 0 0xFD 0x24 0x0200 [(0x200, 0x8D), (0x201, 0x14), (0x202, 0x40)]
    s.cfg.bus = .flat ∧ ∃ t, step s = .next t := ⟨rfl, _, rfl⟩

/-- For both statements of the PPU port: every register, at both ends of its range of mirrors. -/
theorem witness_PpuPort : block.cfg.bus = .system ∧ (∀ k, k < 8 → 0x2000 ≤ (BitVec.ofNat 16 (0x2000 + k)).toNat ∧
      (BitVec.ofNat 16 (0x3FF8 + k)).toNat < 0x4000 ∧ (BitVec.ofNat 16 (0x2000 + k)).toNat % 8 = k ∧
      (BitVec.ofNat 16 (0x3FF8 + k)).toNat % 8 = k) ∧
    block.ppu.w = false ∧ (block.setPpu { Ppu.reset with w := true }).ppu.w = true := by decide +kernel

theorem witness_PaletteMirrors : block.Inv ∧ 3 < 4 ∧ 31 < 32 ∧ 7 < 8 ∧ (30 ≠ 31 ∧ (30 % 4 = 0 → 30 % 16 ≠ 31 % 16)) ∧
    (28 ≠ 24 ∧ (28 % 4 = 0 → 28 % 16 ≠ 24 % 16)) ∧
    ((0x3EFF : Addr).toNat % 0x4000 < 0x3F00 ∧ (0xC000 : Addr).toNat % 0x4000 < 0x3F00) := by decide +kernel

/-- Shared and not shared, with both mirrorings; the last cell below $3F00; pattern cells at both ends, with CHR and with
CHR-RAM, and addresses on each side of $2000 and $3F00. -/
theorem witness_NametablesShare : (block.Inv ∧ block.cfg.mirroring = .horizontal) ∧
    (({ block with cfg := { cartridge with mirroring := .vertical } } : State).Inv ∧
      ({ block with cfg := { cartridge with chrIsRam := true } } : State).Inv ∧
      ({ block with cfg := { cartridge with chrIsRam := false } } : State).Inv) ∧
    (3 < 4 ∧ 0x3FF < 0x400) ∧ (2 / 2 = 3 / 2 ∧ 0x3FF = 0x3FF) ∧ (1 % 2 = 3 % 2) ∧ ¬ (1 / 2 = 2 / 2) ∧ ¬ (0 % 2 = 1 % 2) ∧
    0x400 * 3 + 0x2FF < 0xF00 ∧
    ((0x0000 : Addr).toNat % 0x4000 < 0x2000 ∧ (0xDFFF : Addr).toNat % 0x4000 < 0x2000 ∧
      0x3F00 ≤ (0x3F00 : Addr).toNat % 0x4000 ∧ 0x3F00 ≤ (0xFFFF : Addr).toNat % 0x4000) ∧
    ((0x1FFE : Addr).toNat % 0x4000 ≠ (0x1FFF : Addr).toNat % 0x4000 ∧
      (0x2000 : Addr).toNat % 0x4000 ≠ (0x1FFF : Addr).toNat % 0x4000) :=
  ⟨by decide +kernel, ⟨by decide +kernel, by decide +kernel, by decide +kernel⟩, by decide⟩

theorem witness_StatusChangesAtTwoDots :
    ((rendered 241 1).ppu.scanline = 241 ∧ (rendered 241 1).ppu.dot = 1) ∧
    ((rendered 261 1).ppu.scanline = 261 ∧ (rendered 261 1).ppu.dot = 1) ∧
    ¬ ((rendered 241 2).ppu.dot = 1 ∧ ((rendered 241 2).ppu.scanline = 241 ∨ (rendered 241 2).ppu.scanline = 261)) := by
  decide

theorem witness_RenderingOffKeepsThePipeline : block.ppu.mask &&& 0x18 = 0 ∧
    (block.setPpu { Ppu.reset with mask := 0xE7 }).ppu.mask &&& 0x18 = 0 := by decide

theorem witness_FrameLength : (block.cfg.bus = .system ∧ block.ppu.scanline = 0 ∧ block.ppu.dot = 0) ∧
    ((rendered 261 340).ppu.scanline ≤ 261 ∧ (rendered 261 340).ppu.dot ≤ 340 ∧ ∃ t, step (rendered 261 340) = .next t) :=
  ⟨by decide, by decide, by decide, _, rfl⟩

theorem witness_PixelProduction : (rendered 239 256).Inv ∧ (rendered 0 1).Inv ∧ (rendered 239 257).Inv ∧
    (rendered 240 1).Inv ∧ (rendered 0 0).Inv ∧
    ((rendered 239 256).ppu.scanline ≤ 239 ∧ 1 ≤ (rendered 239 256).ppu.dot ∧ (rendered 239 256).ppu.dot ≤ 256) :=
  ⟨by decide +kernel, by decide +kernel, by decide +kernel, by decide +kernel, by decide +kernel, by decide⟩

/-- Each place in the group of eight, at the ends of both ranges, on the last visible and on the pre-render line; and the
dots beside those ranges, the lines 240 and 260 and a dark screen, which fetch nothing. -/
theorem witness_FetchPipeline :
    (∀ p ∈ [(0, 1), (239, 256), (261, 321), (261, 336), (0, 3), (0, 5), (0, 7), (0, 8)],
      ((rendered p.1 p.2).ppu.scanline ≤ 239 ∨ (rendered p.1 p.2).ppu.scanline = 261) ∧
      (rendered p.1 p.2).ppu.mask &&& 0x18 ≠ 0 ∧
      (1 ≤ (rendered p.1 p.2).ppu.dot ∧ (rendered p.1 p.2).ppu.dot ≤ 256 ∨
        321 ≤ (rendered p.1 p.2).ppu.dot ∧ (rendered p.1 p.2).ppu.dot ≤ 336)) ∧
    ([1, 3, 5, 7, 8, 256, 321, 336].map fun d => (rendered 0 d).ppu.dot % 8) = [1, 3, 5, 7, 0, 0, 1, 0] ∧
    (∀ s ∈ [rendered 0 0, rendered 0 257, rendered 239 320, rendered 261 337, rendered 240 1, rendered 260 336, block],
      ¬ ((s.ppu.scanline ≤ 239 ∨ s.ppu.scanline = 261) ∧ s.ppu.mask &&& 0x18 ≠ 0 ∧
        (1 ≤ s.ppu.dot ∧ s.ppu.dot ≤ 256 ∨ 321 ≤ s.ppu.dot ∧ s.ppu.dot ≤ 336))) := by decide

/-- Each event of `v` at both ends of its range, the parameter false at dots 256 and 257 of the pre-render line, and dots
at which nothing happens to `v`. -/
theorem witness_ScrollUpdates : let s := rendered 239 256
    let t := rendered 261 257
    let quiet := fun d => { rendered 261 d with cfg := { cartridge with prerenderScrollUpdates := false } }
    s.ppu.mask &&& 0x18 ≠ 0 ∧ (s.ppu.scanline ≤ 239 ∧ s.ppu.dot = 256) ∧
    (t.ppu.scanline = 261 ∧ t.cfg.prerenderScrollUpdates = true ∧ t.ppu.dot = 257) ∧
    (∀ d ∈ [256, 257], ¬ ((quiet d).ppu.scanline ≤ 239 ∨
        (quiet d).ppu.scanline = 261 ∧ (quiet d).cfg.prerenderScrollUpdates = true) ∧
      (quiet d).ppu.mask &&& 0x18 ≠ 0 ∧ (quiet d).ppu.scanline = 261 ∧ (quiet d).ppu.dot = d) ∧
    (280 ≤ (rendered 261 280).ppu.dot ∧ (rendered 261 304).ppu.dot ≤ 304) ∧
    (∀ s ∈ [rendered 0 0, rendered 0 7, rendered 0 258, rendered 239 280, rendered 239 320, rendered 0 340,
        rendered 261 279, rendered 261 305, rendered 240 8, rendered 260 256, rendered 240 257, quiet 257],
      ¬ (((s.ppu.scanline ≤ 239 ∨ s.ppu.scanline = 261) ∧ s.ppu.dot % 8 = 0 ∧
          (1 ≤ s.ppu.dot ∧ s.ppu.dot ≤ 256 ∨ 321 ≤ s.ppu.dot ∧ s.ppu.dot ≤ 336)) ∨
        (s.ppu.scanline ≤ 239 ∨ s.ppu.scanline = 261 ∧ s.cfg.prerenderScrollUpdates = true) ∧ s.ppu.dot = 257 ∨
        s.ppu.scanline = 261 ∧ 280 ≤ s.ppu.dot ∧ s.ppu.dot ≤ 304)) := by decide

end Sys2Proof.Tests
end

/-! SUPPORT. The statements of the family 00_scope: the loads (O11), power-on (O46), the stand-alone CPU (O49). The status
byte of SetNZ and the CPU's reset as one equation come first; then an instruction as a chain of bus accesses and updates of
the CPU, so that a fact both keep is a fact every instruction and every CPU tick keep. -/

namespace Sys2Proof.Machine

/-! ### Loads (spec/41_load_store_transfer.md R170 to R172, spec/46_undocumented.md R306) -/

/-- SetNZ in the words of the statements (00_scope.md R15). -/
theorem nzFrom_putNZ (v p : Byte) : NZFrom v p (putNZ v p) := by
  refine ⟨?_, ?_, fun f hn hz => ?_⟩
  · rw [flagOf_putNZ, if_neg (by decide), if_pos rfl, BitVec.msb_eq_getLsbD_last]
  · rw [flagOf_putNZ, if_pos rfl]
    rfl
  · rw [flagOf_putNZ, if_neg hz, if_neg hn]

/-- A read-class instruction whose operation puts the operand into registers (`put`) and sets N and Z from it. The reads
leave the CPU, so N and Z go into the status before the instruction. -/
theorem exec_load {i : Instr} {op put : Byte → State → State} (s : State) (h : readOp i.row.mnemonic = some op)
    (hop : ∀ m t, op m t = (put m t).setP (putNZ m t.cpu.p)) :
    ∃ r q, readOperand i s = some r ∧ NZFrom r.value s.cpu.p q ∧
      exec i s = .next (concluded i r.crossed ((put r.value r.st).setP q)) := by
  obtain ⟨r, hr, hexec⟩ := exec_read i s op h
  refine ⟨r, putNZ r.value s.cpu.p, hr, nzFrom_putNZ _ _, ?_⟩
  rw [hexec, hop, (readOperand_effects hr).cpu]

/-- Settles O11: each of the four mnemonics is a load in the sense of `exec_load`. -/
theorem loadsComplete : Obligations.LoadsComplete := by
  intro i s
  refine ⟨fun h => ?_, fun h => ?_, fun h => ?_, fun h => ?_⟩
  · exact exec_load (op := loadA) (put := State.setA) s (by rw [h]; rfl) fun _ _ => rfl
  · exact exec_load (op := loadX) (put := State.setX) s (by rw [h]; rfl) fun _ _ => rfl
  · exact exec_load (op := loadY) (put := State.setY) s (by rw [h]; rfl) fun _ _ => rfl
  · exact exec_load (op := loadAX) (put := fun m t => (t.setA m).setX m) s (by rw [h]; rfl) fun _ _ => rfl

/-! ### Power-on (spec/70_reset_and_hazards.md R440 to R443) -/

/-- The reset vector is read from plain cells, so the jump changes `PC` alone. -/
theorem jumpThrough_resetVector (s : State) :
    jumpThrough resetVector s = s.setPc (word (peek (resetVector + 1) s) (peek resetVector s)) := by
  unfold jumpThrough memRead16
  simp only [memRead_vector_state s (v := resetVector) (by decide),
    memRead_vector_state s (v := resetVector + 1) (by decide)]
  rfl

/-- The CPU's reset in one equation: nothing outside the CPU changes (R441). -/
theorem cpuReset_eq (s : State) :
    cpuReset s = s.setCpu { s.cpu with
      p := putFlag .u true (putFlag .i true s.cpu.p), pc := word (peek (resetVector + 1) s) (peek resetVector s),
      cycles := 0, pending := none, fault := none } := by
  unfold cpuReset
  rw [jumpThrough_resetVector, setFlag_eq, setFlag_eq]
  simp only [peek_setP, State.setP_p]
  rfl

/-- The launch flags leave B clear (R440). -/
theorem flagOf_b_powerOnStatus (f : PowerOnFlags) : flagOf .b (powerOnStatus f) = false := by
  unfold powerOnStatus
  simp only [flagOf_putFlag, reduceCtorEq, if_false]
  rfl

/-- The reset sets U and keeps B. -/
theorem cpuReset_cpu_inv {s : State} (h : flagOf .b s.cpu.p = false) : (cpuReset s).cpu.Inv := by
  rw [cpuReset_eq]
  exact ⟨flagOf_putFlag_same _ _ _, by simpa [flagOf_putFlag] using h⟩

/-- Power-on of an accepted configuration: the memories are its launch values, everything else is fixed by the reset. -/
theorem powerOn_inv {c : Config} (hc : c.wf = true) : (powerOn c).Inv := by
  have hwf := hc
  unfold Config.wf PowerOn.wf at hwf
  simp only [Bool.and_eq_true] at hwf
  obtain ⟨⟨⟨-, hchr⟩, -⟩, ⟨⟨⟨⟨hram, hvram⟩, hoam⟩, hpalette⟩, hprgRam⟩, hflat⟩ := hwf
  have hcpu : (powerOn c).cpu.Inv := cpuReset_cpu_inv (flagOf_b_powerOnStatus c.powerOn.flags)
  have hchrRam : (constructed c).chrRam.fits 0x2000 = true := by
    unfold constructed
    dsimp only
    split
    · exact hchr
    · rfl
  have hppu : (ppuReset (constructed c)).ppu.Inv :=
    ⟨Nat.zero_le _, Nat.zero_le _, rfl, BitVec.zero_and, Nat.zero_lt_succ _, hvram, hoam, hpalette, rfl⟩
  refine ⟨?_, hcpu, ?_⟩ <;> unfold powerOn systemReset <;> rw [cpuReset_eq]
  · exact hc
  · exact ⟨hppu, hram, hprgRam, hchrRam, hflat⟩

/-- Settles O46: power-on meets the invariant, and `State.reset` is the power-on of the default configuration. -/
theorem powerOnMeetsTheInvariant : Obligations.PowerOnMeetsTheInvariant := by
  refine ⟨fun c hc => powerOn_inv hc, ?_⟩
  rw [reset_eq_powerOn]
  exact powerOn_inv (by decide)

/-! ### An instruction as a chain of bus accesses -/

/-- `t` is `s` but for the CPU and the count of free values: what an operation without a bus access may change. -/
def OnlyCpu (s t : State) : Prop := t = { s with cpu := t.cpu, freeCount := t.freeCount }

/-- `t` comes from `s` by bus reads, bus writes and updates of the CPU. -/
inductive BusChain (s : State) : State → Prop where
  | refl : BusChain s s
  | read {t : State} (a : Addr) (h : BusChain s t) : BusChain s (memRead a t).2
  | write {t : State} (a : Addr) (b : Byte) (h : BusChain s t) : BusChain s (memWrite a b t)
  | cpu {t u : State} (h : BusChain s t) (hu : OnlyCpu t u) : BusChain s u

theorem BusChain.trans {s t u : State} (h : BusChain s t) (h' : BusChain t u) : BusChain s u := by
  induction h' with
  | refl => exact h
  | read a _ ih => exact .read a ih
  | write a b _ ih => exact .write a b ih
  | cpu _ hu ih => exact .cpu ih hu

theorem BusChain.setA {s t : State} (b : Byte) (h : BusChain s t) : BusChain s (t.setA b) := .cpu h rfl

theorem BusChain.setS {s t : State} (b : Byte) (h : BusChain s t) : BusChain s (t.setS b) := .cpu h rfl

theorem BusChain.setP {s t : State} (b : Byte) (h : BusChain s t) : BusChain s (t.setP b) := .cpu h rfl

theorem BusChain.setPc {s t : State} (a : Addr) (h : BusChain s t) : BusChain s (t.setPc a) := .cpu h rfl

theorem addBinary_onlyCpu (m : Byte) (s : State) : OnlyCpu s (addBinary m s) := rfl

theorem addDecimal_onlyCpu (m : Byte) (s : State) : OnlyCpu s (addDecimal m s) := by
  unfold addDecimal
  split <;> rfl

theorem subDecimal_onlyCpu (m : Byte) (s : State) : OnlyCpu s (subDecimal m s) := by
  unfold subDecimal
  split <;> rfl

theorem adc_onlyCpu (m : Byte) (s : State) : OnlyCpu s (adc m s) := by
  unfold adc
  split
  · exact addDecimal_onlyCpu m s
  · exact addBinary_onlyCpu m s

theorem sbc_onlyCpu (m : Byte) (s : State) : OnlyCpu s (sbc m s) := by
  unfold sbc
  split
  · exact subDecimal_onlyCpu m s
  · exact addBinary_onlyCpu _ s

/-- The operation of a read-class instruction makes no access. -/
theorem readOp_onlyCpu {n : Mnemonic} {op : Byte → State → State} (h : readOp n = some op) (m : Byte) (s : State) :
    OnlyCpu s (op m s) := by
  cases n <;> cases h
  case adc => exact adc_onlyCpu m s
  case sbc => exact sbc_onlyCpu m s
  all_goals rfl

/-- What follows the write of a read-modify-write makes no access. -/
theorem rmwOp_onlyCpu {n : Mnemonic} {res : State → Byte → Byte} {fin : Byte → Byte → State → State}
    (h : rmwOp n = some (res, fin)) (old new : Byte) (s : State) : OnlyCpu s (fin old new s) := by
  cases n <;> cases h
  case isb => exact sbc_onlyCpu new s
  all_goals rfl

theorem concluded_chain {s t : State} (i : Instr) (crossed : Bool) (h : BusChain s t) :
    BusChain s (concluded i crossed t) := .cpu h rfl

theorem push_chain {s t : State} (b : Byte) (h : BusChain s t) : BusChain s (push b t) :=
  .setS _ (.write (stackAddr t.cpu.s) b h)

theorem push16_chain {s t : State} (w : Addr) (h : BusChain s t) : BusChain s (push16 w t) :=
  push_chain _ (push_chain _ h)

theorem pop_chain {s t : State} (h : BusChain s t) : BusChain s (pop t).2 := .read _ (.setS _ h)

theorem pop16_chain {s t : State} (h : BusChain s t) : BusChain s (pop16 t).2 := pop_chain (pop_chain h)

theorem memRead16_chain {s t : State} (a : Addr) (h : BusChain s t) : BusChain s (memRead16 a t).2 := .read _ (.read _ h)

theorem resolveIndirect_chain {s t : State} (ptr : Addr) (h : BusChain s t) : BusChain s (resolveIndirect ptr t).2 :=
  .read _ (.read _ h)

theorem enterHandler_chain {s t : State} (ret : Addr) (image : Byte) (vector : Addr) (h : BusChain s t) :
    BusChain s (enterHandler ret image vector t) :=
  .setPc _ (memRead16_chain vector (.setP _ (push_chain image (push16_chain ret h))))

theorem interruptEntry_chain (k : Interrupt) (s : State) : BusChain s (interruptEntry k s) :=
  .cpu (enterHandler_chain s.cpu.pc (imageNoB s.cpu.p) (vectorOf k) .refl) rfl

theorem returnFromInterrupt_chain (s : State) : BusChain s (returnFromInterrupt s) :=
  .setPc _ (pop16_chain (.setP _ (pop_chain .refl)))

theorem readAt_chain (o : MemOperand) (s : State) : BusChain s (readAt o s).st := by
  rw [readAt_eq]
  exact .read _ .refl

theorem readOperand_chain {i : Instr} {s : State} {r : OperandRead} (h : readOperand i s = some r) :
    BusChain s r.st := by
  unfold readOperand at h
  split at h
  · cases h
    exact .refl
  · obtain ⟨o, -, rfl⟩ := Option.map_eq_some_iff.1 h
    exact readAt_chain o s

theorem branchClass_chain (cond : Bool) (off : Int) (s : State) :
    ∃ t, branchClass cond off s = .next t ∧ BusChain s t := by
  cases cond <;> exact ⟨_, rfl, .cpu .refl rfl⟩

theorem exec_read_chain {i : Instr} {op : Byte → State → State} (s : State) (h : readOp i.row.mnemonic = some op) :
    ∃ t, exec i s = .next t ∧ BusChain s t := by
  obtain ⟨r, hr, hexec⟩ := exec_read i s op h
  exact ⟨_, hexec, concluded_chain i _ (.cpu (readOperand_chain hr) (readOp_onlyCpu h _ _))⟩

theorem exec_write_chain {i : Instr} {v : State → Byte} (s : State) (h : writeOp i.row.mnemonic = some v) :
    ∃ t, exec i s = .next t ∧ BusChain s t := by
  obtain ⟨o, -, hexec⟩ := exec_write i s v h
  exact ⟨_, hexec, concluded_chain i _ (.write _ _ .refl)⟩

theorem exec_rmw_chain {i : Instr} {res : State → Byte → Byte} {fin : Byte → Byte → State → State} (s : State)
    (h : rmwOp i.row.mnemonic = some (res, fin)) : ∃ t, exec i s = .next t ∧ BusChain s t := by
  rcases rmw_operand i (by rw [h]; rfl) with ho | hacc
  · obtain ⟨o, ho⟩ := Option.isSome_iff_exists.1 ho
    exact ⟨_, exec_rmw i s o res fin h ho,
      concluded_chain i _ (.cpu (.write _ _ (readAt_chain o s)) (rmwOp_onlyCpu h _ _ _))⟩
  · exact ⟨_, exec_acc i s res fin h hacc, concluded_chain i _ (.cpu (.setA _ .refl) (rmwOp_onlyCpu h _ _ _))⟩

/-- The instructions outside the three access classes: the stack, jumps and branches by name; the others (transfers,
register steps, flags, NOPs) only update the CPU. -/
theorem exec_other_chain {i : Instr} (s : State) (hr : readOp i.row.mnemonic = none) (hw : writeOp i.row.mnemonic = none)
    (hm : rmwOp i.row.mnemonic = none) : ∃ t, exec i s = .next t ∧ BusChain s t := by
  cases i
  case brk => exact ⟨_, rfl, .cpu (enterHandler_chain _ _ _ .refl) rfl⟩
  case rti => exact ⟨_, rfl, .cpu (returnFromInterrupt_chain s) rfl⟩
  case jsr addr => exact ⟨_, rfl, .cpu (push16_chain _ .refl) rfl⟩
  case rts => exact ⟨_, rfl, .cpu (pop16_chain .refl) rfl⟩
  case jmpInd addr => exact ⟨_, rfl, .cpu (resolveIndirect_chain addr .refl) rfl⟩
  case pha => exact ⟨_, rfl, .cpu (push_chain _ .refl) rfl⟩
  case php => exact ⟨_, rfl, .cpu (push_chain _ .refl) rfl⟩
  case pla => exact ⟨_, rfl, .cpu (pop_chain .refl) rfl⟩
  case plp => exact ⟨_, rfl, .cpu (pop_chain .refl) rfl⟩
  case bcc off | bcs off | beq off | bne off | bmi off | bpl off | bvc off | bvs off =>
    exact branchClass_chain _ off s
  all_goals first
    | exact ⟨_, rfl, .cpu .refl rfl⟩
    | exact absurd hr (Option.some_ne_none _)
    | exact absurd hw (Option.some_ne_none _)
    | exact absurd hm (Option.some_ne_none _)

/-- Every instruction goes on, by bus accesses and updates of the CPU alone. -/
theorem exec_chain (i : Instr) (s : State) : ∃ t, exec i s = .next t ∧ BusChain s t := by
  cases hr : readOp i.row.mnemonic with
  | some op => exact exec_read_chain s hr
  | none =>
    cases hw : writeOp i.row.mnemonic with
    | some v => exact exec_write_chain s hw
    | none =>
      cases hm : rmwOp i.row.mnemonic with
      | some rf => exact exec_rmw_chain (res := rf.1) (fin := rf.2) s hm
      | none => exact exec_other_chain s hr hw hm

theorem fetch_chain (s : State) : BusChain s (fetch s).st := by
  unfold fetch
  dsimp only
  split
  · exact .read _ (.read _ (.read _ .refl))
  · exact .read _ (.read _ .refl)
  · exact .read _ .refl

/-- Fetch and execution, or the fetch and the record of an illegal byte (R140, R410). -/
theorem runInstruction_chain (s : State) : ∃ t, runInstruction s = .next t ∧ BusChain s t := by
  unfold runInstruction
  dsimp only
  split
  · next i _ =>
    obtain ⟨t, hexec, ht⟩ := exec_chain i ((fetch s).st.setPc (s.cpu.pc + 1))
    exact ⟨t, hexec, BusChain.trans (.setPc _ (fetch_chain s)) ht⟩
  · exact ⟨_, rfl, .cpu (fetch_chain s) rfl⟩

/-- Every CPU tick goes on, by bus accesses and updates of the CPU alone (R392). -/
theorem cpuTick_chain (s : State) : ∃ t, cpuTick s = .next t ∧ BusChain s t := by
  by_cases hf : s.cpu.fault = none
  · by_cases hc : 0 < s.cpu.cycles
    · exact ⟨_, cpuTick_inDebt hf hc, .cpu .refl rfl⟩
    · have hc : s.cpu.cycles = 0 := Nat.eq_zero_of_not_pos hc
      cases hk : s.cpu.pending with
      | some k => exact ⟨_, cpuTick_entry hf hc hk, interruptEntry_chain k s⟩
      | none =>
        rw [cpuTick_runs hf hc hk]
        exact runInstruction_chain s
  · exact ⟨s, cpuTick_faulted hf, .refl⟩

/-! ### The stand-alone CPU (spec/70_reset_and_hazards.md R459) -/

/-- `t` is `s` but for the CPU, the flat RAM and the count of free values. -/
def OnlyStandAlone (s t : State) : Prop := t = { s with cpu := t.cpu, flatMem := t.flatMem, freeCount := t.freeCount }

theorem OnlyStandAlone.trans {s t u : State} (h : OnlyStandAlone s t) (h' : OnlyStandAlone t u) : OnlyStandAlone s u := by
  unfold OnlyStandAlone at *
  rw [h', h]

theorem OnlyStandAlone.cfg {s t : State} (h : OnlyStandAlone s t) : t.cfg = s.cfg := by rw [h]

theorem route_flat {c : Config} (h : c.bus = .flat) (a : Addr) : route c a = .flat a.toNat := by
  unfold route
  rw [h]

/-- A read of the flat bus changes nothing. -/
theorem memRead_flat {s : State} (h : s.cfg.bus = .flat) (a : Addr) : (memRead a s).2 = s := by
  apply memRead_state
  rw [route_flat h]
  intro r hr
  cases hr

/-- A write of the flat bus goes to the flat RAM. -/
theorem memWrite_flat {s : State} (h : s.cfg.bus = .flat) (a : Addr) (b : Byte) :
    memWrite a b s = s.setFlatMem (s.flatMem.write a.toNat b) := by
  unfold memWrite
  rw [route_flat h]

/-- On the flat bus a chain of accesses reaches nothing but the flat RAM. -/
theorem BusChain.onlyStandAlone {s t : State} (hs : s.cfg.bus = .flat) (h : BusChain s t) : OnlyStandAlone s t := by
  induction h with
  | refl => rfl
  | read a _ ih =>
    rw [memRead_flat (ih.cfg ▸ hs)]
    exact ih
  | write a b _ ih =>
    rw [memWrite_flat (ih.cfg ▸ hs)]
    exact ih.trans rfl
  | cpu _ hu ih =>
    refine ih.trans ?_
    rw [hu]
    rfl

/-- A step of the stand-alone CPU is a CPU tick (log entry 9). -/
theorem step_flat {s : State} (h : s.cfg.bus = .flat) : step s = cpuTick s := by
  unfold step machineTick
  rw [h]

/-- Settles O49: the step of the stand-alone CPU is a CPU tick, a chain of accesses of the flat bus. -/
theorem standAloneCpuHasNoPpu : Obligations.StandAloneCpuHasNoPpu := by
  intro s t hs hstep
  obtain ⟨u, htick, hu⟩ := cpuTick_chain s
  obtain rfl : u = t := by
    rw [step_flat hs, htick] at hstep
    exact Host.Outcome.next.inj hstep
  rw [hu.onlyStandAlone hs]
  exact ⟨rfl, rfl, rfl, rfl, rfl, rfl⟩

end Sys2Proof.Machine

/-! SUPPORT. The statements of the family 10_state: the flags each instruction keeps (O29) and, from them, U and B
(O48); the invariant of the block (O47); the frame buffer as an output (O60). -/

namespace Sys2Proof.Machine

/-! ### Instructions by access class -/

/-- A mnemonic is of the read class, of the write class, a read-modify-write, or none of these (R156). -/
theorem access_cases {P : Prop} (n : Mnemonic) (read : ∀ op, readOp n = some op → P)
    (write : ∀ v, writeOp n = some v → P) (rmw : ∀ res fin, rmwOp n = some (res, fin) → P)
    (other : readOp n = none → writeOp n = none → rmwOp n = none → P) : P := by
  cases hr : readOp n with
  | some op => exact read op hr
  | none =>
    cases hw : writeOp n with
    | some v => exact write v hw
    | none =>
      cases hm : rmwOp n with
      | some rf => exact rmw rf.1 rf.2 hm
      | none => exact other hr hw hm

/-! ### The status register under the shared operations -/

@[simp] theorem push_p (b : Byte) (s : State) : (push b s).cpu.p = s.cpu.p := memWrite_p _ b s

@[simp] theorem push16_p (w : Addr) (s : State) : (push16 w s).cpu.p = s.cpu.p := by
  rw [push16, push_p, push_p]

@[simp] theorem pop_p (s : State) : (pop s).2.cpu.p = s.cpu.p := by rw [pop_eq, State.setS_p]

@[simp] theorem pop16_p (s : State) : (pop16 s).2.cpu.p = s.cpu.p := by rw [pop16_peek, State.setS_p]

@[simp] theorem jumpThrough_p (v : Addr) (s : State) : (jumpThrough v s).cpu.p = s.cpu.p := by
  unfold jumpThrough
  rw [State.setPc_p, (memRead16_effects v s).cpu]

@[simp] theorem resolveIndirect_p (ptr : Addr) (s : State) : (resolveIndirect ptr s).2.cpu.p = s.cpu.p :=
  congrArg Cpu.p (resolveIndirect_effects ptr s).cpu

theorem branchClass_p {cond : Bool} {off : Int} {s t : State} (h : branchClass cond off s = .next t) :
    t.cpu.p = s.cpu.p := by
  cases cond <;> cases h <;> rfl

/-- The entry through a vector sets I, nothing else of the status. -/
theorem enterHandler_p (ret : Addr) (image : Byte) (v : Addr) (s : State) :
    (enterHandler ret image v s).cpu.p = putFlag .i true s.cpu.p := by
  rw [enterHandler, jumpThrough_p, setFlag_p, push_p, push16_p]

theorem interruptEntry_p (k : Interrupt) (s : State) : (interruptEntry k s).cpu.p = putFlag .i true s.cpu.p :=
  enterHandler_p s.cpu.pc (imageNoB s.cpu.p) (vectorOf k) s

/-- Fetching only reads. -/
theorem fetch_effects (s : State) : OnlyReadEffects s (fetch s).st := by
  unfold fetch
  dsimp only
  split
  · exact ((memRead_effects _ s).trans (memRead_effects _ _)).trans (memRead_effects _ _)
  · exact (memRead_effects _ s).trans (memRead_effects _ _)
  · exact memRead_effects _ s

/-! ### The flags an instruction keeps (spec/10_state.md R24) -/

theorem SameFlagsBut.rfl' (fs : List Flag) (p : Byte) : SameFlagsBut fs p p := fun _ _ => rfl

theorem SameFlagsBut.of_eq {fs : List Flag} {p q : Byte} (h : q = p) : SameFlagsBut fs p q := h ▸ .rfl' fs p

theorem SameFlagsBut.putFlag {fs : List Flag} {p q : Byte} {f : Flag} (b : Bool) (hf : f ∈ fs)
    (h : SameFlagsBut fs p q) : SameFlagsBut fs p (putFlag f b q) := by
  intro g hg
  have hgf : g ≠ f := fun hgf => hg (hgf ▸ hf)
  rw [flagOf_putFlag_other hgf, h g hg]

theorem SameFlagsBut.putNZ {fs : List Flag} {p q : Byte} (r : Byte) (hn : .n ∈ fs) (hz : .z ∈ fs)
    (h : SameFlagsBut fs p q) : SameFlagsBut fs p (putNZ r q) := (h.putFlag _ hn).putFlag _ hz

/-- An operation that sets N and Z and no other flag. -/
theorem sameFlagsBut_putNZ (r p : Byte) : SameFlagsBut [.z, .n] p (putNZ r p) :=
  (SameFlagsBut.rfl' _ p).putNZ r (by decide) (by decide)

theorem compareStatus_flags (r m p : Byte) : SameFlagsBut [.c, .z, .n] p (compareStatus r m p) :=
  ((SameFlagsBut.rfl' _ p).putNZ _ (by decide) (by decide)).putFlag _ (by decide)

/-- The flags of a shift or rotate: C from the operand, N and Z from the result. -/
theorem shiftFlags_flags (c : Bool) (r p : Byte) : SameFlagsBut [.c, .z, .n] p (putNZ r (putFlag .c c p)) :=
  ((SameFlagsBut.rfl' _ p).putFlag _ (by decide)).putNZ _ (by decide) (by decide)

theorem addBinary_flags (m : Byte) (s : State) : SameFlagsBut [.c, .z, .v, .n] s.cpu.p (addBinary m s).cpu.p :=
  (((SameFlagsBut.rfl' _ s.cpu.p).putFlag _ (by decide)).putFlag _ (by decide)).putNZ _ (by decide) (by decide)

theorem decimalResult_flags (carry : Bool) (res : Byte) (s : State) :
    SameFlagsBut [.c, .z, .v, .n] s.cpu.p (decimalResult carry res s).cpu.p :=
  (((SameFlagsBut.rfl' _ s.cpu.p).putFlag _ (by decide)).putNZ _ (by decide) (by decide)).putFlag _ (by decide)

theorem decimalOpen_flags (s : State) : SameFlagsBut [.c, .z, .v, .n] s.cpu.p (decimalOpen s).cpu.p :=
  ((((SameFlagsBut.rfl' _ s.cpu.p).putFlag _ (by decide)).putFlag _ (by decide)).putFlag _ (by decide)).putFlag _
    (by decide)

theorem adc_flags (m : Byte) (s : State) : SameFlagsBut [.c, .z, .v, .n] s.cpu.p (adc m s).cpu.p := by
  unfold adc addDecimal
  split
  · split
    · exact decimalResult_flags _ _ s
    · exact decimalOpen_flags s
  · exact addBinary_flags m s

theorem sbc_flags (m : Byte) (s : State) : SameFlagsBut [.c, .z, .v, .n] s.cpu.p (sbc m s).cpu.p := by
  unfold sbc subDecimal
  split
  · split
    · exact decimalResult_flags _ _ s
    · exact decimalOpen_flags s
  · exact addBinary_flags _ s

theorem bitStatus_flags (a m p : Byte) : SameFlagsBut [.z, .v, .n] p (bitStatus a m p) :=
  (((SameFlagsBut.rfl' _ p).putFlag _ (by decide)).putFlag _ (by decide)).putFlag _ (by decide)

/-- The operation of a read-class instruction writes the flags of its row. -/
theorem readOp_flags {n : Mnemonic} {op : Byte → State → State} (h : readOp n = some op) (m : Byte) (s : State) :
    SameFlagsBut (flagsWritten n) s.cpu.p (op m s).cpu.p := by
  cases n <;> cases h
  case adc => exact adc_flags m s
  case sbc => exact sbc_flags m s
  case bit => exact bitStatus_flags s.cpu.a m s.cpu.p
  case cmp | cpx | cpy => exact compareStatus_flags _ m s.cpu.p
  all_goals exact sameFlagsBut_putNZ _ s.cpu.p

/-- What follows the write of a read-modify-write writes the flags of its row. -/
theorem rmwOp_flags {n : Mnemonic} {res : State → Byte → Byte} {fin : Byte → Byte → State → State}
    (h : rmwOp n = some (res, fin)) (old new : Byte) (s : State) :
    SameFlagsBut (flagsWritten n) s.cpu.p (fin old new s).cpu.p := by
  cases n <;> cases h
  case isb => exact sbc_flags new s
  case dcm => exact compareStatus_flags _ new s.cpu.p
  case asl | lsr | rol | ror => exact shiftFlags_flags _ new s.cpu.p
  case inc | dec => exact sameFlagsBut_putNZ new s.cpu.p

theorem exec_read_flags {i : Instr} {op : Byte → State → State} {s t : State} (h : readOp i.row.mnemonic = some op)
    (ht : exec i s = .next t) : SameFlagsBut (flagsWritten i.row.mnemonic) s.cpu.p t.cpu.p := by
  obtain ⟨r, hr, hexec⟩ := exec_read i s op h
  rw [hexec] at ht
  cases ht
  rw [← (readOperand_effects hr).cpu]
  exact readOp_flags h r.value r.st

theorem exec_write_flags {i : Instr} {v : State → Byte} {s t : State} (h : writeOp i.row.mnemonic = some v)
    (ht : exec i s = .next t) : t.cpu.p = s.cpu.p := by
  obtain ⟨o, -, hexec⟩ := exec_write i s v h
  rw [hexec] at ht
  cases ht
  exact memWrite_p _ _ s

theorem exec_rmw_flags {i : Instr} {res : State → Byte → Byte} {fin : Byte → Byte → State → State} {s t : State}
    (h : rmwOp i.row.mnemonic = some (res, fin)) (ht : exec i s = .next t) :
    SameFlagsBut (flagsWritten i.row.mnemonic) s.cpu.p t.cpu.p := by
  rcases rmw_operand i (by rw [h]; rfl) with ho | hacc
  · obtain ⟨o, ho⟩ := Option.isSome_iff_exists.1 ho
    rw [exec_rmw i s o res fin h ho] at ht
    cases ht
    have key := rmwOp_flags h (readAt o s).value (res (readAt o s).st (readAt o s).value)
      (memWrite (resolve o s).ea (res (readAt o s).st (readAt o s).value) (readAt o s).st)
    rw [memWrite_p, (readAt_effects o s).cpu] at key
    exact key
  · rw [exec_acc i s res fin h hacc] at ht
    cases ht
    exact rmwOp_flags h s.cpu.a (res s s.cpu.a) (s.setA (res s s.cpu.a))

/-- The instructions outside the three access classes, by what they do to the status: all of it pulled, I set by BRK,
one flag written, N and Z from a register, nothing. -/
theorem exec_other_flags {i : Instr} {s t : State} (hr : readOp i.row.mnemonic = none)
    (hw : writeOp i.row.mnemonic = none) (hm : rmwOp i.row.mnemonic = none) (ht : exec i s = .next t) :
    SameFlagsBut (flagsWritten i.row.mnemonic) s.cpu.p t.cpu.p := by
  cases i
  case plp | rti => exact fun f hf => absurd (by cases f <;> decide) hf
  case brk =>
    have hp : t.cpu.p = putFlag .i true s.cpu.p := by
      cases ht
      exact enterHandler_p _ _ _ s
    rw [hp]
    exact (SameFlagsBut.rfl' _ s.cpu.p).putFlag _ (by decide)
  case clc | sec | cli | sei | cld | sed | clv =>
    cases ht
    exact (SameFlagsBut.rfl' _ s.cpu.p).putFlag _ (by decide)
  case tax | tay | txa | tya | tsx | inx | iny | dex | dey =>
    cases ht
    exact sameFlagsBut_putNZ _ s.cpu.p
  case pla =>
    cases ht
    rw [← pop_p s]
    exact sameFlagsBut_putNZ _ (pop s).2.cpu.p
  case bcc off | bcs off | beq off | bne off | bmi off | bpl off | bvc off | bvs off =>
    exact .of_eq (branchClass_p ht)
  case pha | php =>
    cases ht
    exact .of_eq (push_p _ s)
  case jsr addr =>
    cases ht
    exact .of_eq (push16_p _ s)
  case rts =>
    cases ht
    exact .of_eq (pop16_p s)
  case jmpInd addr =>
    cases ht
    exact .of_eq (resolveIndirect_p addr s)
  all_goals first
    | exact absurd hr (Option.some_ne_none _)
    | exact absurd hw (Option.some_ne_none _)
    | exact absurd hm (Option.some_ne_none _)
    | (cases ht; exact .of_eq rfl)

/-- Settles O29, by access class. -/
theorem flagsKeptByOtherInstructions : Obligations.FlagsKeptByOtherInstructions := fun i _ _ ht =>
  access_cases i.row.mnemonic (fun _ h => exec_read_flags h ht) (fun _ h => SameFlagsBut.of_eq (exec_write_flags h ht))
    (fun _ _ h => exec_rmw_flags h ht) (fun hr hw hm => exec_other_flags hr hw hm ht)

/-! ### U and B (spec/10_state.md R25) -/

/-- A pulled status has U set and B clear, whatever the byte (R206). -/
theorem pulledStatus_inv (b : Byte) : flagOf .u (pulledStatus b) = true ∧ flagOf .b (pulledStatus b) = false := by
  simp [flagOf_pulledStatus]

theorem returnFromInterrupt_p (s : State) :
    (returnFromInterrupt s).cpu.p = pulledStatus (peek (stackAddr (s.cpu.s + 1)) s) := by
  rw [returnFromInterrupt_eq, State.setPc_p, State.setP_p]

/-- PLP and RTI leave U set and B clear in every state. -/
theorem exec_pull_inv {s t : State} (ht : exec .plp s = .next t ∨ exec .rti s = .next t) : t.cpu.Inv := by
  rcases ht with ht | ht
  · cases ht
    exact pulledStatus_inv (pop s).1
  · have hp : t.cpu.p = pulledStatus (peek (stackAddr (s.cpu.s + 1)) s) := by
      cases ht
      exact returnFromInterrupt_p s
    unfold Cpu.Inv
    rw [hp]
    exact pulledStatus_inv _

/-- U and B are in no row of the list of R24 but those of PLP and RTI. -/
theorem flagsWritten_u_b (n : Mnemonic) :
    (n = .plp ∨ n = .rti) ∨ (.u ∉ flagsWritten n ∧ .b ∉ flagsWritten n) := by
  cases n <;> decide

theorem eq_of_pulls_status {i : Instr} (h : i.row.mnemonic = .plp ∨ i.row.mnemonic = .rti) : i = .plp ∨ i = .rti := by
  cases i
  case plp => exact .inl rfl
  case rti => exact .inr rfl
  all_goals rcases h with h | h <;> cases h

theorem exec_cpu_inv {i : Instr} {s t : State} (hs : s.cpu.Inv) (ht : exec i s = .next t) : t.cpu.Inv := by
  rcases flagsWritten_u_b i.row.mnemonic with hi | ⟨hu, hb⟩
  · exact exec_pull_inv ((eq_of_pulls_status hi).imp (fun h => h ▸ ht) fun h => h ▸ ht)
  · have h := flagsKeptByOtherInstructions i s t ht
    exact ⟨(h .u hu).trans hs.1, (h .b hb).trans hs.2⟩

/-- Setting I leaves U and B. -/
theorem putFlag_i_inv {p : Byte} (h : flagOf .u p = true ∧ flagOf .b p = false) :
    flagOf .u (putFlag .i true p) = true ∧ flagOf .b (putFlag .i true p) = false := by
  simpa [flagOf_putFlag] using h

theorem interruptEntry_cpu_inv {s : State} (k : Interrupt) (hs : s.cpu.Inv) : (interruptEntry k s).cpu.Inv := by
  unfold Cpu.Inv
  rw [interruptEntry_p]
  exact putFlag_i_inv hs

theorem runInstruction_cpu_inv {s t : State} (hs : s.cpu.Inv) (ht : runInstruction s = .next t) : t.cpu.Inv := by
  have hf : (fetch s).st.cpu.Inv := by rwa [(fetch_effects s).cpu]
  unfold runInstruction at ht
  dsimp only at ht
  split at ht
  · exact exec_cpu_inv (s := (fetch s).st.setPc (s.cpu.pc + 1)) hf ht
  · cases ht
    exact hf

theorem cpuStep_cpu_inv {s t : State} (hs : s.cpu.Inv) (ht : cpuStep s = .next t) : t.cpu.Inv := by
  unfold cpuStep at ht
  split at ht
  · cases ht
    exact hs
  · split at ht
    · cases ht
      exact interruptEntry_cpu_inv _ hs
    · exact runInstruction_cpu_inv hs ht

theorem cpuTick_cpu_inv {s t : State} (hs : s.cpu.Inv) (ht : cpuTick s = .next t) : t.cpu.Inv := by
  unfold cpuTick at ht
  split at ht
  · cases ht
    exact hs
  · split at ht
    · cases ht
      exact hs
    · exact cpuStep_cpu_inv hs ht

theorem ppuTick_cpu_inv {s : State} (hs : s.cpu.Inv) : (ppuTick s).cpu.Inv := by rwa [Cpu.Inv, ppuTick_p]

/-- What every dot and every CPU tick keep and the count of ticks does not touch, every step keeps. -/
theorem step_keeps {P : State → Prop} (hdot : ∀ s, P s → P (ppuTick s))
    (hcpu : ∀ s t, P s → cpuTick s = .next t → P t) (hcount : ∀ s, P s → P (countTick s)) {s t : State} (hs : P s)
    (ht : step s = .next t) : P t := by
  unfold step machineTick at ht
  split at ht
  · unfold busTick at ht
    dsimp only at ht
    split at ht
    · obtain ⟨u, hu, -⟩ := cpuTick_chain (ppuTick s)
      rw [hu] at ht
      cases ht
      exact hcount u (hcpu _ u (hdot s hs) hu)
    · cases ht
      exact hcount _ (hdot s hs)
  · exact hcpu s t hs ht

theorem step_cpu_inv {s t : State} (hs : s.cpu.Inv) (ht : step s = .next t) : t.cpu.Inv :=
  step_keeps (P := fun s => s.cpu.Inv) (fun _ => ppuTick_cpu_inv) (fun _ _ => cpuTick_cpu_inv) (fun _ h => h) hs ht

/-- Settles O48: power-on, the instructions by O29, the interrupt entries and the resets. -/
theorem statusBitsUAndBHold : Obligations.StatusBitsUAndBHold := by
  refine ⟨fun c => cpuReset_cpu_inv (flagOf_b_powerOnStatus c.powerOn.flags), fun s t => ⟨?_, exec_pull_inv⟩⟩
  intro hu hb ht
  rcases ht with ht | ⟨i, ht⟩ | rfl | ht
  · exact step_cpu_inv ⟨hu, hb⟩ ht
  · exact exec_cpu_inv ⟨hu, hb⟩ ht
  · exact cpuReset_cpu_inv (s := ppuReset s) hb
  · exact cpuStep_cpu_inv ⟨hu, hb⟩ ht

/-! ### The invariant outside the CPU (spec/10_state.md R34 to R49) -/

/-- `State.Inv` without the CPU: the part that bus accesses and dots keep, whatever the CPU does between them. -/
def BlockInv (s : State) : Prop :=
  s.cfg.wf = true ∧ s.ppu.Inv ∧ s.ram.fits 0x800 = true ∧ s.prgRam.fits 0x2000 = true ∧
    s.chrRam.fits 0x2000 = true ∧ s.flatMem.fits 0x10000 = true

theorem state_inv_iff (s : State) : s.Inv ↔ s.cpu.Inv ∧ BlockInv s := and_left_comm

theorem BlockInv.status_clear {s : State} (h : BlockInv s) : s.ppu.status &&& 0x1F = 0 := by
  obtain ⟨-, ⟨-, -, -, hstatus, -⟩, -⟩ := h
  exact hstatus

theorem BlockInv.memoriesFit {s : State} (h : BlockInv s) : MemoriesFit s := by
  obtain ⟨-, ⟨-, -, -, -, -, hvram, hoam, hpalette, -⟩, hram, hprgRam, hchrRam, hflatMem⟩ := h
  exact ⟨hram, hprgRam, hchrRam, hflatMem, hvram, hoam, hpalette⟩

/-- A bus access keeps the rest if it keeps the memories in form and the unused status bits 0. -/
theorem BlockInv.of_busEffects {s t : State} (h : BlockInv s) (he : OnlyBusEffects s t) (hm : MemoriesFit t)
    (hs : t.ppu.status &&& 0x1F = 0) : BlockInv t := by
  obtain ⟨hcfg, ⟨hline, hdot, hodd, -, hattr, -, -, -, hframe⟩, -⟩ := h
  obtain ⟨hcfg', -, ⟨eline, edot, eframe, eodd, -, -, -, -, -, eattr, -, -, ebuffer⟩, -⟩ := he
  obtain ⟨hram, hprgRam, hchrRam, hflatMem, hvram, hoam, hpalette⟩ := hm
  refine ⟨hcfg' ▸ hcfg, ⟨eline ▸ hline, edot ▸ hdot, ?_, hs, eattr ▸ hattr, hvram, hoam, hpalette, ebuffer ▸ hframe⟩,
    hram, hprgRam, hchrRam, hflatMem⟩
  rw [eodd, eframe, hodd]

/-! ### The unused status bits under a bus access -/

theorem status_clear_and {x : Byte} (h : x &&& 0x1F = 0) (m : Byte) : x &&& m &&& 0x1F = 0 := by
  rw [BitVec.and_assoc, BitVec.and_comm m, ← BitVec.and_assoc, h]
  exact BitVec.zero_and

theorem memRead_status_clear (a : Addr) {s : State} (h : s.ppu.status &&& 0x1F = 0) :
    (memRead a s).2.ppu.status &&& 0x1F = 0 := by
  obtain ⟨-, hs | hs, -⟩ := memRead_effects a s <;> rw [hs]
  · exact h
  · exact status_clear_and h 0x7F

@[simp] theorem ppuWrite_status (a : Addr) (b : Byte) (s : State) : (ppuWrite a b s).ppu.status = s.ppu.status := by
  unfold ppuWrite
  dsimp only
  split
  · split <;> rfl
  · split <;> rfl

/-- No register write changes the status (R324). -/
@[simp] theorem ppuRegWrite_status (r : BitVec 3) (b : Byte) (s : State) :
    (ppuRegWrite r b s).ppu.status = s.ppu.status := by
  unfold ppuRegWrite writeScroll writeAddr
  split
  case h_5 | h_6 => split <;> rfl
  case h_7 => exact ppuWrite_status _ b s
  all_goals rfl

/-- A DMA reads, so it may clear VBLANK, and writes OAM. -/
theorem dmaTransfers_status_clear (n : Nat) (a : Addr) {s : State} (h : s.ppu.status &&& 0x1F = 0) :
    (dmaTransfers n a s).ppu.status &&& 0x1F = 0 := by
  induction n generalizing a s with
  | zero => exact h
  | succ n ih =>
    refine ih (a + 1) (s := dmaTransfer a s) ?_
    unfold dmaTransfer
    rw [ppuRegWrite_status]
    exact memRead_status_clear a h

theorem memWrite_status_clear (a : Addr) (b : Byte) {s : State} (h : s.ppu.status &&& 0x1F = 0) :
    (memWrite a b s).ppu.status &&& 0x1F = 0 := by
  unfold memWrite
  cases route s.cfg a with
  | ppuPort r => simpa only [ppuRegWrite_status] using h
  | dmaPort =>
    unfold oamDma
    rw [State.setCycles_ppu]
    exact dmaTransfers_status_clear 256 (dmaBase b) h
  | _ => exact h

/-! ### Bus accesses and updates of the CPU keep the invariant -/

theorem BlockInv.memRead {s : State} (h : BlockInv s) (a : Addr) : BlockInv (memRead a s).2 :=
  h.of_busEffects (memRead_effects a s).bus (memRead_fits a h.memoriesFit) (memRead_status_clear a h.status_clear)

theorem BlockInv.memWrite {s : State} (h : BlockInv s) (a : Addr) (b : Byte) : BlockInv (memWrite a b s) :=
  h.of_busEffects (memWrite_effects a b s) (memWrite_fits a b h.memoriesFit) (memWrite_status_clear a b h.status_clear)

theorem BlockInv.onlyCpu {s t : State} (h : BlockInv s) (ht : OnlyCpu s t) : BlockInv t := by
  rw [ht]
  exact h

theorem BusChain.blockInv {s t : State} (hs : BlockInv s) (h : BusChain s t) : BlockInv t := by
  induction h with
  | refl => exact hs
  | read a _ ih => exact ih.memRead a
  | write a b _ ih => exact ih.memWrite a b
  | cpu _ hu ih => exact ih.onlyCpu hu

theorem cpuTick_blockInv {s t : State} (hs : BlockInv s) (ht : cpuTick s = .next t) : BlockInv t := by
  obtain ⟨u, hu, hchain⟩ := cpuTick_chain s
  rw [hu] at ht
  cases ht
  exact hchain.blockInv hs

/-! ### A dot keeps the invariant -/

/-- The position is in the frame, and `odd_frame` is the parity of `frame` (R36, R37). -/
def InFrame (u : Ppu) : Prop := u.scanline ≤ 261 ∧ u.dot ≤ 340 ∧ u.oddFrame = decide (u.frame % 2 = 1)

theorem newFrame_inFrame {u : Ppu} (h : u.oddFrame = decide (u.frame % 2 = 1)) : InFrame (newFrame u) := by
  refine ⟨Nat.zero_le _, Nat.zero_le _, ?_⟩
  show (!u.oddFrame) = decide ((u.frame + 1) % 2 = 1)
  rw [h, ← decide_not, decide_eq_decide]
  omega

theorem advance_inFrame (rend : Bool) {u : Ppu} (h : InFrame u) : InFrame (advance rend u) := by
  obtain ⟨hline, hdot, hodd⟩ := h
  unfold advance
  split
  · exact newFrame_inFrame hodd
  · split
    · split
      · exact newFrame_inFrame hodd
      · exact ⟨by show u.scanline + 1 ≤ 261; omega, Nat.zero_le _, hodd⟩
    · exact ⟨hline, by show u.dot + 1 ≤ 340; omega, hodd⟩

theorem ppuTick_inFrame {s : State} (h : InFrame s.ppu) : InFrame (ppuTick s).ppu := by
  obtain ⟨hline, hdot, hframe, hodd⟩ := ppuTick_position s
  have ha := advance_inFrame (rendering s.ppu) h
  unfold InFrame
  rwa [hline, hdot, hframe, hodd]

theorem clearFlags_status_clear {s : State} (h : s.ppu.status &&& 0x1F = 0) :
    (clearFlags s).ppu.status &&& 0x1F = 0 := status_clear_and h 0x1F

theorem startVblank_status (s : State) : (startVblank s).ppu.status = s.ppu.status ||| 0x80 := by
  unfold startVblank
  dsimp only
  split <;> rfl

theorem startVblank_status_clear {s : State} (h : s.ppu.status &&& 0x1F = 0) :
    (startVblank s).ppu.status &&& 0x1F = 0 := by
  rw [startVblank_status, BitVec.and_or_distrib_right, h]
  rfl

theorem flagEvents_status_clear (sl d : Nat) {s : State} (h : s.ppu.status &&& 0x1F = 0) :
    (flagEvents sl d s).ppu.status &&& 0x1F = 0 := by
  unfold flagEvents
  dsimp only
  split <;> split
  · exact startVblank_status_clear (clearFlags_status_clear h)
  · exact startVblank_status_clear h
  · exact clearFlags_status_clear h
  · exact h

theorem attributeBits_lt (v : BitVec 15) (b : Byte) : (attributeBits v b).toNat < 4 := by
  unfold attributeBits
  dsimp only
  rw [BitVec.toNat_and]
  exact Nat.lt_of_le_of_lt Nat.and_le_right (by decide)

/-- The staged selector is written at one place of a group of eight, with two bits (R363). -/
theorem fetchStep_nextTileAttr_lt (k : Nat) {s : State} (h : s.ppu.nextTileAttr.toNat < 4) :
    (fetchStep k s).ppu.nextTileAttr.toNat < 4 := by
  unfold fetchStep
  split
  case h_2 => exact attributeBits_lt _ _
  all_goals exact h

theorem renderEvents_nextTileAttr_lt (rend : Bool) (sl d : Nat) {s : State} (h : s.ppu.nextTileAttr.toNat < 4) :
    (renderEvents rend sl d s).ppu.nextTileAttr.toNat < 4 := by
  have hf : (fetchEvent d s).ppu.nextTileAttr.toNat < 4 := by
    unfold fetchEvent
    split
    · exact fetchStep_nextTileAttr_lt (d % 8) (s := s.setPpu (shiftShifters s.ppu)) h
    · exact h
  unfold renderEvents
  split
  · obtain ⟨v, hv⟩ := scrollEvents_eq sl d (fetchEvent d s)
    rwa [hv]
  · exact h

theorem ppuTick_nextTileAttr_lt {s : State} (h : s.ppu.nextTileAttr.toNat < 4) :
    (ppuTick s).ppu.nextTileAttr.toNat < 4 := by
  unfold ppuTick
  dsimp only
  rw [State.setPpu_ppu, advance_eq]
  apply renderEvents_nextTileAttr_lt
  obtain ⟨m, hm⟩ := pixelEvent_eq s.ppu.scanline s.ppu.dot (flagEvents s.ppu.scanline s.ppu.dot s)
  rwa [hm, flagEvents_eq]

/-- A pixel is inside the frame buffer (R46, R372). -/
theorem pixelEvent_framebuffer_fits (sl d : Nat) {s : State} (h : s.ppu.framebuffer.fits 61440 = true) :
    (pixelEvent sl d s).ppu.framebuffer.fits 61440 = true := by
  unfold pixelEvent
  split
  · next hpixel =>
    simp only [visibleLine, Bool.and_eq_true, decide_eq_true_eq] at hpixel
    exact Memory.fits_write _ h (by omega)
  · exact h

theorem ppuTick_ppu_inv {s : State} (h : s.ppu.Inv) : (ppuTick s).ppu.Inv := by
  obtain ⟨hline, hdot, hodd, hstatus, hattr, hvram, hoam, hpalette, hframe⟩ := h
  obtain ⟨hline', hdot', hodd'⟩ := ppuTick_inFrame ⟨hline, hdot, hodd⟩
  obtain ⟨-, -, -, -, -, -, -, evram, eoam, epalette⟩ := ppuTick_ppu s
  refine ⟨hline', hdot', hodd', ?_, ppuTick_nextTileAttr_lt hattr, evram ▸ hvram, eoam ▸ hoam, epalette ▸ hpalette, ?_⟩
  · rw [ppuTick_status]
    exact flagEvents_status_clear _ _ hstatus
  · rw [ppuTick_framebuffer]
    exact pixelEvent_framebuffer_fits _ _ hframe

theorem ppuTick_blockInv {s : State} (h : BlockInv s) : BlockInv (ppuTick s) := by
  obtain ⟨hcfg, hppu, hmemories⟩ := h
  have hppu' := ppuTick_ppu_inv hppu
  obtain ⟨u, k, hu, -⟩ := ppuTick_effects s
  rw [hu] at hppu' ⊢
  exact ⟨hcfg, hppu', hmemories⟩

/-- Settles O47: the CPU's part is O48's, the rest is kept by every dot and by every bus access of a CPU tick. -/
theorem stepKeepsTheInvariant : Obligations.StepKeepsTheInvariant := by
  intro s t hs ht
  rw [state_inv_iff] at hs ⊢
  exact ⟨step_cpu_inv hs.1 ht,
    step_keeps (P := BlockInv) (fun _ => ppuTick_blockInv) (fun _ _ => cpuTick_blockInv) (fun _ h => h) hs.2 ht⟩


/-! ### The frame buffer as an output (spec/10_state.md R46): each operation commutes with replacing it -/

/-- `s` with another frame buffer. -/
def State.withFrame (g : Memory 6) (s : State) : State := s.setPpu { s.ppu with framebuffer := g }

section Frame
variable (g : Memory 6)

@[simp] theorem State.withFrame_cfg (s : State) : (s.withFrame g).cfg = s.cfg := rfl
@[simp] theorem State.withFrame_cpu (s : State) : (s.withFrame g).cpu = s.cpu := rfl
@[simp] theorem State.withFrame_tickCount (s : State) : (s.withFrame g).tickCount = s.tickCount := rfl

/-! #### Bus accesses -/

theorem ppuRegRead_withFrame (r : BitVec 3) (s : State) :
    ppuRegRead r (s.withFrame g) = ((ppuRegRead r s).1, (ppuRegRead r s).2.withFrame g) := by
  unfold ppuRegRead
  split <;> rfl

theorem memRead_withFrame (a : Addr) (s : State) :
    memRead a (s.withFrame g) = ((memRead a s).1, (memRead a s).2.withFrame g) := by
  unfold memRead
  rw [State.withFrame_cfg]
  cases route s.cfg a with
  | ppuPort r => exact ppuRegRead_withFrame g r s
  | _ => rfl

theorem ppuWrite_withFrame (a : Addr) (b : Byte) (s : State) :
    ppuWrite a b (s.withFrame g) = (ppuWrite a b s).withFrame g := by
  unfold ppuWrite
  dsimp only
  rw [State.withFrame_cfg]
  split
  · split <;> rfl
  · split <;> rfl

theorem writeScroll_withFrame (b : Byte) (s : State) :
    (s.withFrame g).setPpu (writeScroll b (s.withFrame g).ppu) = (s.setPpu (writeScroll b s.ppu)).withFrame g := by
  have hw : (s.withFrame g).ppu.w = s.ppu.w := rfl
  unfold writeScroll
  rw [hw]
  split <;> rfl

theorem writeAddr_withFrame (b : Byte) (s : State) :
    (s.withFrame g).setPpu (writeAddr b (s.withFrame g).ppu) = (s.setPpu (writeAddr b s.ppu)).withFrame g := by
  have hw : (s.withFrame g).ppu.w = s.ppu.w := rfl
  unfold writeAddr
  rw [hw]
  split <;> rfl

theorem writeData_withFrame (b : Byte) (s : State) :
    writeData b (s.withFrame g) = (writeData b s).withFrame g := by
  have hwrite : ppuWrite (dataAddr (s.withFrame g).ppu) b (s.withFrame g) =
      (ppuWrite (dataAddr s.ppu) b s).withFrame g := ppuWrite_withFrame g (dataAddr s.ppu) b s
  unfold writeData
  rw [hwrite]
  rfl

theorem ppuRegWrite_withFrame (r : BitVec 3) (b : Byte) (s : State) :
    ppuRegWrite r b (s.withFrame g) = (ppuRegWrite r b s).withFrame g := by
  unfold ppuRegWrite
  split
  case h_5 => exact writeScroll_withFrame g b s
  case h_6 => exact writeAddr_withFrame g b s
  case h_7 => exact writeData_withFrame g b s
  all_goals rfl

theorem dmaTransfers_withFrame (n : Nat) (a : Addr) (s : State) :
    dmaTransfers n a (s.withFrame g) = (dmaTransfers n a s).withFrame g := by
  induction n generalizing a s with
  | zero => rfl
  | succ n ih =>
    have htransfer : dmaTransfer a (s.withFrame g) = (dmaTransfer a s).withFrame g := by
      unfold dmaTransfer
      rw [memRead_withFrame]
      exact ppuRegWrite_withFrame g 4 _ _
    rw [dmaTransfers, htransfer, ih, dmaTransfers]

theorem oamDma_withFrame (b : Byte) (s : State) : oamDma b (s.withFrame g) = (oamDma b s).withFrame g := by
  unfold oamDma
  rw [dmaTransfers_withFrame]
  generalize dmaTransfers 256 (dmaBase b) s = t
  rfl

theorem memWrite_withFrame (a : Addr) (b : Byte) (s : State) :
    memWrite a b (s.withFrame g) = (memWrite a b s).withFrame g := by
  unfold memWrite
  rw [State.withFrame_cfg]
  cases route s.cfg a with
  | ppuPort r => exact ppuRegWrite_withFrame g r b s
  | dmaPort => exact oamDma_withFrame g b s
  | _ => rfl

/-! #### The stack, the vectors and the fetch -/

theorem push_withFrame (b : Byte) (s : State) : push b (s.withFrame g) = (push b s).withFrame g :=
  congrArg (fun t : State => t.setS (t.cpu.s - 1)) (memWrite_withFrame g (stackAddr s.cpu.s) b s)

theorem push16_withFrame (w : Addr) (s : State) : push16 w (s.withFrame g) = (push16 w s).withFrame g := by
  rw [push16, push_withFrame, push_withFrame, push16]

theorem pop_withFrame (s : State) : pop (s.withFrame g) = ((pop s).1, (pop s).2.withFrame g) :=
  memRead_withFrame g (stackAddr (s.cpu.s + 1)) (s.setS (s.cpu.s + 1))

theorem pop16_withFrame (s : State) : pop16 (s.withFrame g) = ((pop16 s).1, (pop16 s).2.withFrame g) := by
  unfold pop16
  dsimp only
  rw [pop_withFrame, pop_withFrame]

theorem memRead16_withFrame (a : Addr) (s : State) :
    memRead16 a (s.withFrame g) = ((memRead16 a s).1, (memRead16 a s).2.withFrame g) := by
  unfold memRead16
  dsimp only
  rw [memRead_withFrame, memRead_withFrame]

theorem resolveIndirect_withFrame (ptr : Addr) (s : State) :
    resolveIndirect ptr (s.withFrame g) = ((resolveIndirect ptr s).1, (resolveIndirect ptr s).2.withFrame g) := by
  unfold resolveIndirect
  dsimp only
  rw [State.withFrame_cfg, memRead_withFrame, memRead_withFrame]

theorem enterHandler_withFrame (ret : Addr) (image : Byte) (v : Addr) (s : State) :
    enterHandler ret image v (s.withFrame g) = (enterHandler ret image v s).withFrame g := by
  have hframe (t : State) : (t.withFrame g).setFlag .i true = (t.setFlag .i true).withFrame g := rfl
  unfold enterHandler jumpThrough
  dsimp only
  rw [push16_withFrame, push_withFrame, hframe, memRead16_withFrame]
  rfl

theorem returnFromInterrupt_withFrame (s : State) :
    returnFromInterrupt (s.withFrame g) = (returnFromInterrupt s).withFrame g := by
  have hframe (t : State) (p : Byte) : (t.withFrame g).setP p = (t.setP p).withFrame g := rfl
  unfold returnFromInterrupt
  dsimp only
  rw [pop_withFrame, hframe, pop16_withFrame]
  rfl

theorem fetch_withFrame (s : State) : fetch (s.withFrame g) = { fetch s with st := (fetch s).st.withFrame g } := by
  unfold fetch
  dsimp only
  rw [State.withFrame_cpu, memRead_withFrame]
  dsimp only
  split
  · rw [memRead_withFrame, memRead_withFrame]
  · rw [memRead_withFrame]
  · rfl

/-! #### Instructions -/

theorem zpRead16_withFrame (p : Byte) (s : State) :
    zpRead16 p (s.withFrame g) = ((zpRead16 p s).1, (zpRead16 p s).2.withFrame g) := by
  unfold zpRead16
  dsimp only
  rw [memRead_withFrame, memRead_withFrame]

theorem resolve_withFrame (o : MemOperand) (s : State) :
    resolve o (s.withFrame g) = { resolve o s with st := (resolve o s).st.withFrame g } := by
  cases o
  case indX b => exact congrArg (fun r : Addr × State => Located.mk r.1 false r.2) (zpRead16_withFrame g _ s)
  case indY b => exact congrArg (fun r : Addr × State => indexed r.1 s.cpu.y r.2) (zpRead16_withFrame g b s)
  all_goals rfl

theorem readAt_withFrame (o : MemOperand) (s : State) :
    readAt o (s.withFrame g) = { readAt o s with st := (readAt o s).st.withFrame g } := by
  unfold readAt
  rw [resolve_withFrame]
  dsimp only
  rw [memRead_withFrame]

theorem readOperand_withFrame {i : Instr} {s : State} {r : OperandRead} (h : readOperand i s = some r) :
    readOperand i (s.withFrame g) = some { r with st := r.st.withFrame g } := by
  unfold readOperand at h ⊢
  split at h
  · cases h
    rfl
  · obtain ⟨o, ho, rfl⟩ := Option.map_eq_some_iff.1 h
    rw [ho, Option.map_some, readAt_withFrame]

theorem addDecimal_withFrame (m : Byte) (s : State) :
    addDecimal m (s.withFrame g) = (addDecimal m s).withFrame g := by
  unfold addDecimal
  rw [State.withFrame_cpu]
  split <;> rfl

theorem subDecimal_withFrame (m : Byte) (s : State) :
    subDecimal m (s.withFrame g) = (subDecimal m s).withFrame g := by
  unfold subDecimal
  rw [State.withFrame_cpu]
  split <;> rfl

theorem adc_withFrame (m : Byte) (s : State) : adc m (s.withFrame g) = (adc m s).withFrame g := by
  have hmode : decimalMode (s.withFrame g) = decimalMode s := rfl
  unfold adc
  rw [hmode, addDecimal_withFrame]
  split <;> rfl

theorem sbc_withFrame (m : Byte) (s : State) : sbc m (s.withFrame g) = (sbc m s).withFrame g := by
  have hmode : decimalMode (s.withFrame g) = decimalMode s := rfl
  unfold sbc
  rw [hmode, subDecimal_withFrame]
  split <;> rfl

theorem readOp_withFrame {n : Mnemonic} {op : Byte → State → State} (h : readOp n = some op) (m : Byte) (s : State) :
    op m (s.withFrame g) = (op m s).withFrame g := by
  cases n <;> cases h
  case adc => exact adc_withFrame g m s
  case sbc => exact sbc_withFrame g m s
  all_goals rfl

theorem writeOp_withFrame {n : Mnemonic} {v : State → Byte} (h : writeOp n = some v) (s : State) :
    v (s.withFrame g) = v s := by
  cases n <;> cases h <;> rfl

theorem rmwOp_withFrame {n : Mnemonic} {res : State → Byte → Byte} {fin : Byte → Byte → State → State}
    (h : rmwOp n = some (res, fin)) (old new : Byte) (s : State) :
    res (s.withFrame g) old = res s old ∧ fin old new (s.withFrame g) = (fin old new s).withFrame g := by
  cases n <;> cases h
  case isb => exact ⟨rfl, sbc_withFrame g new s⟩
  all_goals exact ⟨rfl, rfl⟩

theorem exec_read_withFrame {i : Instr} {op : Byte → State → State} (s : State) (h : readOp i.row.mnemonic = some op) :
    exec i (s.withFrame g) = mapNext (State.withFrame g) (exec i s) := by
  obtain ⟨r, hr, hexec⟩ := exec_read i s op h
  obtain ⟨r', hr', hexec'⟩ := exec_read i (s.withFrame g) op h
  rw [readOperand_withFrame g hr] at hr'
  cases hr'
  rw [hexec, hexec', readOp_withFrame g h]
  rfl

theorem exec_write_withFrame {i : Instr} {v : State → Byte} (s : State) (h : writeOp i.row.mnemonic = some v) :
    exec i (s.withFrame g) = mapNext (State.withFrame g) (exec i s) := by
  obtain ⟨o, ho, hexec⟩ := exec_write i s v h
  obtain ⟨o', ho', hexec'⟩ := exec_write i (s.withFrame g) v h
  rw [ho] at ho'
  cases ho'
  rw [hexec, hexec', resolve_withFrame, writeOp_withFrame g h, memWrite_withFrame]
  rfl

theorem exec_rmw_withFrame {i : Instr} {res : State → Byte → Byte} {fin : Byte → Byte → State → State} (s : State)
    (h : rmwOp i.row.mnemonic = some (res, fin)) :
    exec i (s.withFrame g) = mapNext (State.withFrame g) (exec i s) := by
  have hres (t : State) (m : Byte) : res (t.withFrame g) m = res t m := (rmwOp_withFrame g h m m t).1
  have hfin (old new : Byte) (t : State) : fin old new (t.withFrame g) = (fin old new t).withFrame g :=
    (rmwOp_withFrame g h old new t).2
  rcases rmw_operand i (by rw [h]; rfl) with ho | hacc
  · obtain ⟨o, ho⟩ := Option.isSome_iff_exists.1 ho
    rw [exec_rmw i s o res fin h ho, exec_rmw i (s.withFrame g) o res fin h ho, readAt_withFrame, resolve_withFrame]
    dsimp only
    rw [hres, memWrite_withFrame, hfin]
    rfl
  · rw [exec_acc i s res fin h hacc, exec_acc i (s.withFrame g) res fin h hacc, hres]
    exact congrArg (fun t => Host.Outcome.next (concluded i false t)) (hfin s.cpu.a _ (s.setA (res s s.cpu.a)))

theorem branchClass_withFrame (cond : Bool) (off : Int) (s : State) :
    branchClass cond off (s.withFrame g) = mapNext (State.withFrame g) (branchClass cond off s) := by
  cases cond <;> rfl

/-- The instructions outside the three access classes. -/
theorem exec_other_withFrame {i : Instr} (s : State) (hr : readOp i.row.mnemonic = none)
    (hw : writeOp i.row.mnemonic = none) (hm : rmwOp i.row.mnemonic = none) :
    exec i (s.withFrame g) = mapNext (State.withFrame g) (exec i s) := by
  cases i
  case brk =>
    exact congrArg (fun t => Host.Outcome.next (charge 7 t))
      (enterHandler_withFrame g (s.cpu.pc + 1) (imageWithB s.cpu.p) irqVector s)
  case rti => exact congrArg (fun t => Host.Outcome.next (charge 6 t)) (returnFromInterrupt_withFrame g s)
  case jsr addr =>
    exact congrArg (fun t : State => Host.Outcome.next (charge 6 (t.setPc addr))) (push16_withFrame g (s.cpu.pc + 1) s)
  case rts =>
    exact congrArg (fun r : Addr × State => Host.Outcome.next (charge 6 (r.2.setPc (r.1 + 1)))) (pop16_withFrame g s)
  case jmpInd addr =>
    exact congrArg (fun r : Addr × State => Host.Outcome.next (charge 5 (r.2.setPc r.1)))
      (resolveIndirect_withFrame g addr s)
  case pha => exact congrArg (fun t => Host.Outcome.next (retire 1 3 t)) (push_withFrame g s.cpu.a s)
  case php => exact congrArg (fun t => Host.Outcome.next (retire 1 3 t)) (push_withFrame g (imageWithB s.cpu.p) s)
  case pla =>
    exact congrArg (fun r : Byte × State => Host.Outcome.next (retire 1 4 (loadA r.1 r.2))) (pop_withFrame g s)
  case plp =>
    exact congrArg (fun r : Byte × State => Host.Outcome.next (retire 1 4 (r.2.setP (pulledStatus r.1))))
      (pop_withFrame g s)
  case bcc off | bcs off | beq off | bne off | bmi off | bpl off | bvc off | bvs off =>
    exact branchClass_withFrame g _ off s
  all_goals first
    | exact absurd hr (Option.some_ne_none _)
    | exact absurd hw (Option.some_ne_none _)
    | exact absurd hm (Option.some_ne_none _)
    | rfl

theorem exec_withFrame (i : Instr) (s : State) :
    exec i (s.withFrame g) = mapNext (State.withFrame g) (exec i s) :=
  access_cases i.row.mnemonic (fun _ => exec_read_withFrame g s) (fun _ => exec_write_withFrame g s)
    (fun _ _ => exec_rmw_withFrame g s) (exec_other_withFrame g s)

/-! #### The CPU tick -/

theorem runInstruction_withFrame (s : State) :
    runInstruction (s.withFrame g) = mapNext (State.withFrame g) (runInstruction s) := by
  unfold runInstruction
  rw [fetch_withFrame]
  dsimp only
  split
  · next i _ => exact exec_withFrame g i ((fetch s).st.setPc (s.cpu.pc + 1))
  · rfl

theorem interruptEntry_withFrame (k : Interrupt) (s : State) :
    interruptEntry k (s.withFrame g) = (interruptEntry k s).withFrame g :=
  congrArg (fun t : State => (charge (entryCycles k) t).setPending none)
    (enterHandler_withFrame g s.cpu.pc (imageNoB s.cpu.p) (vectorOf k) s)

theorem cpuTick_withFrame (s : State) : cpuTick (s.withFrame g) = mapNext (State.withFrame g) (cpuTick s) := by
  unfold cpuTick cpuStep
  rw [State.withFrame_cpu, runInstruction_withFrame]
  split
  · rfl
  · split
    · rfl
    · split
      · exact congrArg Host.Outcome.next (interruptEntry_withFrame g _ s)
      · rfl

/-! #### The dot: it writes the frame buffer and does not read it -/

theorem startVblank_withFrame (s : State) : startVblank (s.withFrame g) = (startVblank s).withFrame g := by
  have hctrl : (s.withFrame g).ppu.ctrl = s.ppu.ctrl := rfl
  unfold startVblank
  dsimp only
  rw [hctrl]
  split <;> rfl

theorem flagEvents_withFrame (sl d : Nat) (s : State) :
    flagEvents sl d (s.withFrame g) = (flagEvents sl d s).withFrame g := by
  have hclear : clearFlags (s.withFrame g) = (clearFlags s).withFrame g := rfl
  unfold flagEvents
  dsimp only
  rw [hclear]
  split <;> split
  · exact startVblank_withFrame g (clearFlags s)
  · exact startVblank_withFrame g s
  · rfl
  · rfl

/-- The pixel event forgets the frame buffer it starts from, up to the one it leaves. -/
theorem pixelEvent_withFrame (sl d : Nat) (s : State) :
    ∃ g', pixelEvent sl d (s.withFrame g) = (pixelEvent sl d s).withFrame g' := by
  obtain ⟨m, hm⟩ := pixelEvent_eq sl d s
  obtain ⟨g', hg'⟩ := pixelEvent_eq sl d (s.withFrame g)
  exact ⟨g', by rw [hm, hg']; rfl⟩

theorem fetchStep_withFrame (k : Nat) (s : State) : fetchStep k (s.withFrame g) = (fetchStep k s).withFrame g := by
  unfold fetchStep
  split <;> rfl

theorem fetchEvent_withFrame (d : Nat) (s : State) : fetchEvent d (s.withFrame g) = (fetchEvent d s).withFrame g := by
  unfold fetchEvent
  split
  · exact fetchStep_withFrame g (d % 8) (s.setPpu (shiftShifters s.ppu))
  · rfl

theorem scrollEvents_withFrame (sl d : Nat) (s : State) :
    scrollEvents sl d (s.withFrame g) = (scrollEvents sl d s).withFrame g := by
  have hv : (scrollEvents sl d (s.withFrame g)).ppu.v = (scrollEvents sl d s).ppu.v := by
    rw [scrollEvents_v, scrollEvents_v]
    rfl
  obtain ⟨v, h⟩ := scrollEvents_eq sl d s
  obtain ⟨v', h'⟩ := scrollEvents_eq sl d (s.withFrame g)
  rw [h, h'] at hv ⊢
  cases hv
  rfl

theorem renderEvents_withFrame (rend : Bool) (sl d : Nat) (s : State) :
    renderEvents rend sl d (s.withFrame g) = (renderEvents rend sl d s).withFrame g := by
  unfold renderEvents
  rw [fetchEvent_withFrame, scrollEvents_withFrame]
  split <;> rfl

theorem advance_withFrame (rend : Bool) (u : Ppu) :
    advance rend { u with framebuffer := g } = { advance rend u with framebuffer := g } := by
  unfold advance
  dsimp only
  split
  · rfl
  · split
    · split <;> rfl
    · rfl

theorem ppuTick_withFrame (s : State) : ∃ g', ppuTick (s.withFrame g) = (ppuTick s).withFrame g' := by
  obtain ⟨g', hpixel⟩ := pixelEvent_withFrame g s.ppu.scanline s.ppu.dot (flagEvents s.ppu.scanline s.ppu.dot s)
  refine ⟨g', ?_⟩
  have hevents : renderEvents (rendering s.ppu) s.ppu.scanline s.ppu.dot (pixelEvent s.ppu.scanline s.ppu.dot
      (flagEvents s.ppu.scanline s.ppu.dot (s.withFrame g))) = (renderEvents (rendering s.ppu) s.ppu.scanline
      s.ppu.dot (pixelEvent s.ppu.scanline s.ppu.dot (flagEvents s.ppu.scanline s.ppu.dot s))).withFrame g' := by
    rw [flagEvents_withFrame, hpixel, renderEvents_withFrame]
  refine (congrArg (fun t : State => t.setPpu (advance (rendering s.ppu) t.ppu)) hevents).trans ?_
  exact congrArg (State.setPpu · _) (advance_withFrame g' _ _)

end Frame

/-! #### The step -/

/-- Every CPU tick goes on, from a state with any frame buffer to one with the same. -/
theorem cpuTick_next_withFrame (s : State) :
    ∃ t : State, ∀ g : Memory 6, cpuTick (s.withFrame g) = .next (t.withFrame g) := by
  obtain ⟨t, ht, -⟩ := cpuTick_chain s
  exact ⟨t, fun g => by rw [cpuTick_withFrame, ht]; rfl⟩

/-- What a step leads to, but for the frame buffer, does not depend on the frame buffer. -/
theorem step_withFrame (s : State) :
    ∃ t : State, ∀ g : Memory 6, ∃ g' : Memory 6, step (s.withFrame g) = .next (t.withFrame g') := by
  unfold step machineTick
  simp only [State.withFrame_cfg]
  cases s.cfg.bus with
  | flat =>
    obtain ⟨t, ht⟩ := cpuTick_next_withFrame s
    exact ⟨t, fun g => ⟨g, ht g⟩⟩
  | system =>
    obtain ⟨t, ht⟩ := cpuTick_next_withFrame (ppuTick s)
    refine ⟨countTick (if (ppuTick s).tickCount % 3 = 0 then t else ppuTick s), fun g => ?_⟩
    obtain ⟨g', hg'⟩ := ppuTick_withFrame g s
    refine ⟨g', ?_⟩
    unfold busTick
    dsimp only
    rw [hg', State.withFrame_tickCount, ht]
    split <;> rfl

/-- Settles O60: the dot forgets the frame buffer, the CPU tick carries it along. -/
theorem framebufferIsAnOutput : Obligations.FramebufferIsAnOutput := by
  intro s f g
  obtain ⟨t, ht⟩ := step_withFrame s
  obtain ⟨f', hf'⟩ := ht f
  obtain ⟨g', hg'⟩ := ht g
  exact ⟨t, f', g', hf', hg'⟩

end Sys2Proof.Machine

/-! SUPPORT. The statements of the family 20_memory: the CPU bus (O35 to O38), the OAM DMA (O39), the PPU's address space
(O52, O53), and what the instructions leave alone (O31 to O33). -/

namespace Sys2Proof.Machine

/-! ### The route of an address, by address range (spec/20_memory.md R71, R72) -/

section SystemBus
variable {c : Config} (hbus : c.bus = .system)
include hbus

theorem route_ram {a : Addr} (h : a.toNat < 0x2000) : route c a = .ram (a.toNat % 0x800) := by
  simp only [route, hbus]
  rw [if_pos h]

theorem route_port {a : Addr} (h : 0x2000 ≤ a.toNat) (h' : a.toNat < 0x4000) : route c a = .ppuPort (a.setWidth 3) := by
  simp only [route, hbus]
  rw [if_neg (by omega), if_pos h']

theorem route_stub {a : Addr} (h : 0x4000 ≤ a.toNat) (h' : a.toNat < 0x6000) (hdma : a.toNat ≠ 0x4014) :
    route c a = .zero := by
  simp only [route, hbus]
  rw [if_neg (by omega), if_neg (by omega), if_neg hdma, if_pos h']

theorem route_prgRam {a : Addr} (h : 0x6000 ≤ a.toNat) (h' : a.toNat < 0x8000) :
    route c a = if c.hasPrgRam then .prgRam (a.toNat - 0x6000) else .zero := by
  simp only [route, hbus]
  rw [if_neg (by omega), if_neg (by omega), if_neg (by omega), if_neg (by omega), if_pos h']

theorem route_prgRom {a : Addr} (h : 0x8000 ≤ a.toNat) :
    route c a = .prgRom ((a.toNat - 0x8000) % c.prgBanks.size) := by
  simp only [route, hbus]
  rw [if_neg (by omega), if_neg (by omega), if_neg (by omega), if_neg (by omega), if_neg (by omega)]

end SystemBus

/-- The PPU registers stand at $2000-$3FFF of the block's bus, each at every eighth address. -/
theorem route_ppuPort (c : Config) (a : Addr) (r : BitVec 3) :
    route c a = .ppuPort r ↔ c.bus = .system ∧ 0x2000 ≤ a.toNat ∧ a.toNat < 0x4000 ∧ a.setWidth 3 = r := by
  constructor
  · intro h
    unfold route at h
    split at h
    · cases h
    · next hbus =>
      split_ifs at h
      exact ⟨hbus, by omega, by omega, Region.ppuPort.inj h⟩
  · rintro ⟨hbus, h, h', rfl⟩
    exact route_port hbus h h'

/-- Outside the PPU registers and $4014 every cell is plain. -/
theorem plainCell_of_not_port {c : Config} {a : Addr}
    (h : ¬ (c.bus = .system ∧ (0x2000 ≤ a.toNat ∧ a.toNat < 0x4000 ∨ a.toNat = 0x4014))) : plainCell c a = true := by
  unfold plainCell
  split
  · next r hr =>
    obtain ⟨hbus, hlo, hhi, -⟩ := (route_ppuPort c a r).1 hr
    exact absurd ⟨hbus, .inl ⟨hlo, hhi⟩⟩ h
  · next hr =>
    obtain ⟨hbus, rfl⟩ := (route_dmaPort c a).1 hr
    exact absurd ⟨hbus, .inr rfl⟩ h
  all_goals rfl

theorem toNat_setWidth_three (a : Addr) : (a.setWidth 3).toNat = a.toNat % 8 := BitVec.toNat_setWidth 3 a

/-! ### One access, by the region of its address -/

section Access
variable {a : Addr} {s : State}

theorem access_flat {i : Nat} (b : Byte) (h : route s.cfg a = .flat i) :
    memRead a s = (s.flatMem.read i, s) ∧ memWrite a b s = s.setFlatMem (s.flatMem.write i b) := by
  simp only [memRead, memWrite, h, and_self]

theorem access_ram {i : Nat} (b : Byte) (h : route s.cfg a = .ram i) :
    memRead a s = (s.ram.read i, s) ∧ memWrite a b s = s.setRam (s.ram.write i b) := by
  simp only [memRead, memWrite, h, and_self]

theorem access_port {r : BitVec 3} (b : Byte) (h : route s.cfg a = .ppuPort r) :
    memRead a s = ppuRegRead r s ∧ memWrite a b s = ppuRegWrite r b s := by
  simp only [memRead, memWrite, h, and_self]

theorem access_dmaPort (b : Byte) (h : route s.cfg a = .dmaPort) :
    memRead a s = (0, s) ∧ memWrite a b s = oamDma b s := by
  simp only [memRead, memWrite, h, and_self]

theorem access_zero (b : Byte) (h : route s.cfg a = .zero) : memRead a s = (0, s) ∧ memWrite a b s = s := by
  simp only [memRead, memWrite, h, and_self]

theorem access_prgRam {i : Nat} (b : Byte) (h : route s.cfg a = .prgRam i) :
    memRead a s = (s.prgRam.read i, s) ∧ memWrite a b s = s.setPrgRam (s.prgRam.write i b) := by
  simp only [memRead, memWrite, h, and_self]

theorem access_prgRom {i : Nat} (b : Byte) (h : route s.cfg a = .prgRom i) :
    memRead a s = (s.cfg.prgRom.read i, s) ∧ memWrite a b s = s := by
  simp only [memRead, memWrite, h, and_self]

/-- Two addresses of one cell are one address to the bus. -/
theorem access_congr {c : Addr} (b : Byte) (h : route s.cfg a = route s.cfg c) :
    memRead a s = memRead c s ∧ memWrite a b s = memWrite c b s := by
  simp only [memRead, memWrite, h, and_self]

end Access

/-- $4000-$5FFF reads 0 and discards writes, but for the write to $4014 (R76, D25). -/
theorem access_stub {s : State} {a : Addr} (b : Byte) (hbus : s.cfg.bus = .system) (h : 0x4000 ≤ a.toNat)
    (h' : a.toNat < 0x6000) : memRead a s = (0, s) ∧ (a.toNat ≠ 0x4014 → memWrite a b s = s) := by
  by_cases hdma : a.toNat = 0x4014
  · have hr := (route_dmaPort s.cfg a).2 ⟨hbus, BitVec.eq_of_toNat_eq hdma⟩
    exact ⟨(access_dmaPort b hr).1, fun hne => absurd hdma hne⟩
  · have hr := access_zero b (route_stub hbus h h' hdma)
    exact ⟨hr.1, fun _ => hr.2⟩

/-- Settles O35, range by range. -/
theorem busRouting : Obligations.BusRouting := by
  intro s a b
  refine ⟨fun hflat => access_flat b (route_flat hflat a), fun hbus => ⟨fun h => access_ram b (route_ram hbus h),
    fun h h' => ⟨_, toNat_setWidth_three a, access_port b (route_port hbus h h')⟩,
    fun h h' => access_stub b hbus h h', fun h h' => ?_, fun h => ?_⟩⟩
  · have hr := route_prgRam hbus h h'
    refine ⟨fun hram => access_prgRam b ?_, fun hram => access_zero b ?_⟩
    · rw [hr, if_pos hram]
    · rw [hr, if_neg (by simp [hram])]
  · have hr := access_prgRom b (route_prgRom hbus h)
    refine ⟨hr.2, fun htwo => ?_, fun hone => ?_⟩
    · have hmod : (a.toNat - 0x8000) % s.cfg.prgBanks.size = a.toNat - 0x8000 := by
        rw [htwo]
        exact Nat.mod_eq_of_lt (by have := a.isLt; simp only [PrgBanks.size]; omega)
      rw [hr.1, hmod]
    · rw [hr.1, hone]
      rfl

/-! ### Mirrors (spec/20_memory.md R73) -/

/-- The four mirrors of an address below $0800 are one cell of the RAM. -/
theorem route_ram_mirror {c : Config} (hbus : c.bus = .system) {a : Addr} (ha : a.toNat < 0x800) {k : Nat} (hk : k < 4) :
    route c (a + BitVec.ofNat 16 (k * 0x800)) = .ram a.toNat := by
  have hsum : (a + BitVec.ofNat 16 (k * 0x800)).toNat = a.toNat + k * 0x800 := by
    rw [BitVec.toNat_add, BitVec.toNat_ofNat]
    omega
  rw [route_ram hbus (by omega), hsum, Nat.add_mul_mod_self_right, Nat.mod_eq_of_lt ha]

/-- An address of $2000-$3FFF is the register of $2000-$2007 with the same last three bits. -/
theorem route_port_mirror {c : Config} (hbus : c.bus = .system) {a : Addr} (h : 0x2000 ≤ a.toNat)
    (h' : a.toNat < 0x4000) : route c a = route c (BitVec.ofNat 16 (0x2000 + a.toNat % 8)) := by
  have hr : (BitVec.ofNat 16 (0x2000 + a.toNat % 8)).toNat = 0x2000 + a.toNat % 8 := by
    rw [BitVec.toNat_ofNat]
    omega
  rw [route_port hbus h h', route_port hbus (by omega) (by omega)]
  congr 1
  apply BitVec.eq_of_toNat_eq
  rw [toNat_setWidth_three, toNat_setWidth_three, hr]
  omega

/-- Settles O36: the mirrors share their route. -/
theorem ramMirrors : Obligations.RamMirrors := by
  intro s a b k l hbus hwf ha hk hl
  have hcell : route s.cfg a = .ram a.toNat := by rw [route_ram hbus (by omega), Nat.mod_eq_of_lt ha]
  refine ⟨(access_congr b ((route_ram_mirror hbus ha hk).trans hcell.symm)).1, ?_,
    fun c h h' => access_congr b (route_port_mirror hbus h h')⟩
  have hread : route (s.setRam (s.ram.write a.toNat b)).cfg (a + BitVec.ofNat 16 (k * 0x800)) = .ram a.toNat :=
    route_ram_mirror hbus ha hk
  rw [(access_ram b (route_ram_mirror hbus ha hl)).2, (access_ram b hread).1]
  exact Memory.read_write_same a.toNat b hwf

/-! ### Accesses with a wider effect (spec/20_memory.md R75) -/

/-- Only the registers 2 and 7 have a read that changes the state. -/
theorem ppuRegRead_state {r : BitVec 3} (h2 : r.toNat ≠ 2) (h7 : r.toNat ≠ 7) (s : State) : (ppuRegRead r s).2 = s := by
  unfold ppuRegRead
  split
  · exact absurd ‹_› h2
  · rfl
  · exact absurd ‹_› h7
  · rfl

theorem vramIncrement_ne (u : Ppu) : vramIncrement u ≠ u.v := by
  unfold vramIncrement
  split <;> bv_omega

/-- A read of PPUSTATUS clears the toggle, a read of PPUDATA moves `v`. -/
theorem ppuRegRead_ne {r : BitVec 3} {s : State} (h : r.toNat = 2 ∧ s.ppu.w = true ∨ r.toNat = 7) :
    (ppuRegRead r s).2 ≠ s := by
  intro heq
  unfold ppuRegRead at heq
  rcases h with ⟨hr, hw⟩ | hr <;> rw [hr] at heq
  · have : false = s.ppu.w := congrArg (fun t : State => t.ppu.w) heq
    rw [hw] at this
    cases this
  · exact vramIncrement_ne s.ppu (congrArg (fun t : State => t.ppu.v) heq)

/-- A write to a plain cell leaves the CPU. -/
theorem memWrite_plain_cpu {a : Addr} {s : State} (b : Byte) (ha : plainCell s.cfg a = true) :
    (memWrite a b s).cpu = s.cpu := by
  rw [memWrite_plain b ha]
  split <;> rfl

/-- Settles O37: a read that changes the state is one of the PPU port, and there of the registers 2 and 7; every other cell
is plain. -/
theorem onlyTwoPortsHaveReadEffects : Obligations.OnlyTwoPortsHaveReadEffects := by
  intro s a b
  refine ⟨fun hne => ?_, fun hbus h h' hreg => ?_, fun hport => ?_⟩
  · obtain ⟨r, hr⟩ : ∃ r, route s.cfg a = .ppuPort r := by
      by_contra hno
      exact hne (memRead_state fun r hr => hno ⟨r, hr⟩)
    obtain ⟨hbus, hlo, hhi, hmod⟩ := (route_ppuPort s.cfg a r).1 hr
    refine ⟨hbus, hlo, hhi, ?_⟩
    rw [← toNat_setWidth_three, hmod]
    by_contra hreg
    rw [not_or] at hreg
    rw [(access_port b hr).1] at hne
    exact hne (ppuRegRead_state hreg.1 hreg.2 s)
  · rw [(access_port b (route_port hbus h h')).1]
    apply ppuRegRead_ne
    rwa [toNat_setWidth_three]
  · have ha := plainCell_of_not_port hport
    exact ⟨memWrite_plain_cpu b ha, (memWrite_plain_ppu b ha).1, memWrite_cfg a b s,
      fun c hc hne => peek_memWrite_other b hc hne⟩

/-! ### Read after write (spec/20_memory.md R96) -/

/-- A cell of a writable memory reads the byte written last. -/
theorem peek_memWrite_same {s : State} {a : Addr} (b : Byte) (hs : MemoriesFit s)
    (ha : ∃ i, route s.cfg a = .ram i ∨ route s.cfg a = .prgRam i ∨ route s.cfg a = .flat i) :
    peek a (memWrite a b s) = b := by
  obtain ⟨hram, hprgRam, -, hflat, -⟩ := hs
  have hcfg := memWrite_cfg a b s
  unfold peek
  obtain ⟨i, hi | hi | hi⟩ := ha
  · rw [(access_ram b (hcfg ▸ hi)).1, (access_ram b hi).2]
    exact Memory.read_write_same i b (Memory.wf_of_fits hram)
  · rw [(access_prgRam b (hcfg ▸ hi)).1, (access_prgRam b hi).2]
    exact Memory.read_write_same i b (Memory.wf_of_fits hprgRam)
  · rw [(access_flat b (hcfg ▸ hi)).1, (access_flat b hi).2]
    exact Memory.read_write_same i b (Memory.wf_of_fits hflat)

/-- Settles O38. -/
theorem readGivesTheLastWrite : Obligations.ReadGivesTheLastWrite := by
  intro s a c b hs hc
  refine ⟨fun ha hroute => ?_, fun hne => peek_memWrite_other b hc hne⟩
  have hroute' : route (memWrite a b s).cfg c = route (memWrite a b s).cfg a := by rw [memWrite_cfg, hroute]
  have hcell : peek c (memWrite a b s) = peek a (memWrite a b s) := congrArg Prod.fst (access_congr b hroute').1
  rw [hcell]
  exact peek_memWrite_same b ((state_inv_iff s).1 hs).2.memoriesFit ha

/-! ### OAM DMA (spec/49_bus_clock_dma.md R395) -/

/-- `s` with another sprite table and OAM address. -/
def State.withOam (m : Memory 8) (n : Byte) (s : State) : State := s.setPpu { s.ppu with oam := m, oamAddr := n }

/-- A byte outside the PPU port does not depend on the PPU. -/
theorem peek_setPpu {a : Addr} {s : State} (h : ∀ r, route s.cfg a ≠ .ppuPort r) (u : Ppu) :
    peek a (s.setPpu u) = peek a s := by
  unfold peek memRead
  rw [State.setPpu_cfg]
  cases hr : route s.cfg a with
  | ppuPort r => exact absurd hr (h r)
  | _ => rfl

theorem memRead_oamAddr (a : Addr) (s : State) : (memRead a s).2.ppu.oamAddr = s.ppu.oamAddr := by
  obtain ⟨h, -⟩ := memRead_effects a s
  rw [h]
  rfl

/-- Each transfer of a DMA moves the OAM address by one, from any page. -/
theorem dmaTransfers_oamAddr (n : Nat) (src : Addr) (s : State) :
    (dmaTransfers n src s).ppu.oamAddr = s.ppu.oamAddr + BitVec.ofNat 8 n := by
  induction n generalizing src s with
  | zero => exact (BitVec.add_zero _).symm
  | succ n ih =>
    have hstep : (dmaTransfer src s).ppu.oamAddr = s.ppu.oamAddr + 1 := congrArg (· + 1) (memRead_oamAddr src s)
    rw [dmaTransfers, ih, hstep, Nat.add_comm n, BitVec.ofNat_add, ← BitVec.add_assoc]
    rfl

/-- A transfer from outside the PPU port: the byte goes to OAM, the OAM address moves, nothing else changes. -/
theorem dmaTransfer_eq {src : Addr} {s : State} (h : ∀ r, route s.cfg src ≠ .ppuPort r) :
    dmaTransfer src s = s.withOam (s.ppu.oam.write s.ppu.oamAddr.toNat (peek src s)) (s.ppu.oamAddr + 1) := by
  have hwrite : dmaTransfer src s = ppuRegWrite 4 (peek src s) (memRead src s).2 := rfl
  rw [hwrite, memRead_state h]
  rfl

theorem dmaTransfers_snoc (n : Nat) (src : Addr) (s : State) :
    dmaTransfers (n + 1) src s = dmaTransfer (src + BitVec.ofNat 16 n) (dmaTransfers n src s) := by
  induction n generalizing src s with
  | zero => exact congrArg (dmaTransfer · s) (BitVec.add_zero src).symm
  | succ n ih =>
    have hsrc : src + 1 + BitVec.ofNat 16 n = src + BitVec.ofNat 16 (n + 1) := by
      rw [Nat.add_comm n, BitVec.ofNat_add, ← BitVec.add_assoc]
      rfl
    rw [dmaTransfers, ih, hsrc, dmaTransfers]

/-- `t` is `s` but for the OAM address and the sprite table, which holds at the OAM address of `s` and on around the `n`
bytes from `src`. -/
def OamCopied (src : Addr) (s : State) (n : Nat) (t : State) : Prop :=
  t = s.withOam t.ppu.oam t.ppu.oamAddr ∧
    ∀ i, i < n → t.ppu.oam.read ((s.ppu.oamAddr.toNat + i) % 256) = peek (src + BitVec.ofNat 16 i) s

/-- The transfers of a page outside the PPU port copy it: each of the 256 writes another cell of OAM. -/
theorem dmaTransfers_copy {src : Addr} {s : State} (hs : MemoriesFit s) {n : Nat} (hn : n ≤ 256)
    (hsrc : ∀ i, i < n → ∀ r, route s.cfg (src + BitVec.ofNat 16 i) ≠ .ppuPort r) :
    OamCopied src s n (dmaTransfers n src s) := by
  induction n with
  | zero => exact ⟨rfl, fun i hi => absurd hi (Nat.not_lt_zero i)⟩
  | succ n ih =>
    obtain ⟨hframe, hcopied⟩ := ih (by omega) fun i hi => hsrc i (by omega)
    obtain ⟨-, -, -, -, -, hoam, -⟩ := dmaTransfers_fits n src hs
    have haddr : (dmaTransfers n src s).ppu.oamAddr.toNat = (s.ppu.oamAddr.toNat + n) % 256 := by
      rw [dmaTransfers_oamAddr, BitVec.toNat_add, BitVec.toNat_ofNat, Nat.add_mod_mod]
    rw [dmaTransfers_snoc]
    generalize dmaTransfers n src s = t at hframe hcopied hoam haddr ⊢
    have hcfg : t.cfg = s.cfg := by rw [hframe]; rfl
    have hbyte : peek (src + BitVec.ofNat 16 n) t = peek (src + BitVec.ofNat 16 n) s := by
      rw [hframe]
      exact peek_setPpu (hsrc n (by omega)) _
    rw [dmaTransfer_eq (hcfg ▸ hsrc n (by omega)), hbyte, haddr]
    refine ⟨?_, fun i hi => ?_⟩
    · rw [hframe]
      rfl
    · refine (Memory.read_write _ _ _ (Memory.wf_of_fits hoam)).trans ?_
      split
      · next hcell =>
        obtain rfl : i = n := by omega
        rfl
      · next hcell =>
        have hne : i ≠ n := fun hin => hcell (hin ▸ rfl)
        exact hcopied i (by omega)

theorem dmaBase_toNat (val : Byte) : (dmaBase val).toNat = val.toNat * 256 := by
  unfold dmaBase zext16
  bv_omega

/-- The addresses of a DMA's page. -/
theorem dmaBase_add (val : Byte) (i : Nat) : dmaBase val + BitVec.ofNat 16 i = BitVec.ofNat 16 (val.toNat * 256 + i) := by
  rw [BitVec.ofNat_add, ← dmaBase_toNat, BitVec.ofNat_toNat, BitVec.setWidth_eq]

/-- A page outside $20-$3F has no PPU register. -/
theorem route_dmaPage (c : Config) {val : Byte} (hval : ¬ (0x20 ≤ val.toNat ∧ val.toNat < 0x40)) {i : Nat} (hi : i < 256)
    (r : BitVec 3) : route c (dmaBase val + BitVec.ofNat 16 i) ≠ .ppuPort r := by
  intro hr
  obtain ⟨-, hlo, hhi, -⟩ := (route_ppuPort _ _ _).1 hr
  rw [dmaBase_add, BitVec.toNat_ofNat] at hlo hhi
  have := val.isLt
  omega

theorem oamDma_eq (val : Byte) (s : State) :
    oamDma val s = (dmaTransfers 256 (dmaBase val) s).setCycles (s.cpu.cycles + 513) := by
  unfold oamDma
  dsimp only
  rw [dmaTransfers_cpu]

/-- Settles O39: 256 transfers bring the OAM address round, and outside the PPU port they copy the page. -/
theorem oamDmaCopiesThePage : Obligations.OamDmaCopiesThePage := by
  intro s val hbus hs
  have hdma : memWrite 0x4014 val s = oamDma val s := (access_dmaPort val ((route_dmaPort s.cfg 0x4014).2 ⟨hbus, rfl⟩)).2
  have haddr : (dmaTransfers 256 (dmaBase val) s).ppu.oamAddr = s.ppu.oamAddr := by
    rw [dmaTransfers_oamAddr]
    exact BitVec.add_zero _
  dsimp only
  rw [hdma, oamDma_eq]
  refine ⟨rfl, haddr, fun hval => ?_⟩
  obtain ⟨hframe, hcopied⟩ := dmaTransfers_copy ((state_inv_iff s).1 hs).2.memoriesFit (n := 256) (le_refl _)
    fun i hi => route_dmaPage s.cfg hval hi
  rw [haddr] at hframe
  refine ⟨congrArg (State.setCycles (s.cpu.cycles + 513)) hframe, fun i hi => ?_⟩
  rw [← dmaBase_add]
  exact hcopied i hi

/-! ### The PPU's address space, by address range (spec/20_memory.md R80 to R85) -/

theorem ppuAddr_toNat (a : Addr) : (ppuAddr a).toNat = a.toNat % 0x4000 := by
  unfold ppuAddr
  rw [BitVec.toNat_and]
  exact Nat.and_two_pow_sub_one_eq_mod a.toNat 14

/-- The PPU's space repeats every $4000. -/
theorem ppuAddr_add (a : Addr) : ppuAddr (a + 0x4000) = ppuAddr a := by
  apply BitVec.eq_of_toNat_eq
  rw [ppuAddr_toNat, ppuAddr_toNat, BitVec.toNat_add]
  change (a.toNat + 0x4000) % 65536 % 0x4000 = _
  omega

/-- The palette index looks at five bits of the address only. -/
theorem palIndex_ppuAddr (a : Addr) : palIndex (ppuAddr a) = palIndex a := by
  unfold palIndex
  rw [ppuAddr_toNat, Nat.mod_mod_of_dvd _ (by decide)]

section Space
variable {a : Addr} (s : State)

theorem ppuRead_pattern (h : a.toNat % 0x4000 < 0x2000) :
    ppuRead a s = if s.cfg.chrIsRam then s.chrRam.read (a.toNat % 0x4000) else s.cfg.chr.read (a.toNat % 0x4000) := by
  simp only [ppuRead, chrRead, ppuAddr_toNat, if_pos h]

theorem ppuRead_nametable (h : 0x2000 ≤ a.toNat % 0x4000) (h' : a.toNat % 0x4000 < 0x3F00) :
    ppuRead a s = s.ppu.vram.read (ntIndex s.cfg.mirroring (ppuAddr a)) := by
  simp only [ppuRead, ppuAddr_toNat]
  rw [if_neg (by omega), if_pos h']

theorem ppuRead_palette (h : 0x3F00 ≤ a.toNat % 0x4000) : ppuRead a s = s.ppu.palette.read (palIndex a) := by
  simp only [ppuRead, ppuAddr_toNat, palIndex_ppuAddr]
  rw [if_neg (by omega), if_neg (by omega)]

theorem ppuWrite_pattern (b : Byte) (h : a.toNat % 0x4000 < 0x2000) :
    ppuWrite a b s = if s.cfg.chrIsRam then s.setChrRam (s.chrRam.write (a.toNat % 0x4000) b) else s := by
  simp only [ppuWrite, ppuAddr_toNat, if_pos h]

theorem ppuWrite_nametable (b : Byte) (h : 0x2000 ≤ a.toNat % 0x4000) (h' : a.toNat % 0x4000 < 0x3F00) :
    ppuWrite a b s =
      s.setPpu { s.ppu with vram := s.ppu.vram.write (ntIndex s.cfg.mirroring (ppuAddr a)) b } := by
  simp only [ppuWrite, ppuAddr_toNat]
  rw [if_neg (by omega), if_pos h']

theorem ppuWrite_palette (b : Byte) (h : 0x3F00 ≤ a.toNat % 0x4000) :
    ppuWrite a b s = s.setPpu { s.ppu with palette := s.ppu.palette.write (palIndex a) b } := by
  simp only [ppuWrite, ppuAddr_toNat, palIndex_ppuAddr]
  rw [if_neg (by omega), if_neg (by omega)]

/-! ### The palette (spec/20_memory.md R85) -/

/-- The palette index: the low five bits, the backdrops of the sprite half aliased to those of the background half. -/
theorem palIndex_eq (a : Addr) : palIndex a = if a.toNat % 4 = 0 then a.toNat % 16 else a.toNat % 32 := by
  unfold palIndex
  dsimp only
  split <;> split <;> omega

/-- A palette entry after a palette write. -/
theorem ppuRead_ppuWrite_palette {c : Addr} (b : Byte) (hs : MemoriesFit s) (ha : 0x3F00 ≤ a.toNat % 0x4000)
    (hc : 0x3F00 ≤ c.toNat % 0x4000) :
    ppuRead c (ppuWrite a b s) = if palIndex c = palIndex a then b else ppuRead c s := by
  obtain ⟨-, -, -, -, -, -, hpalette⟩ := hs
  rw [ppuWrite_palette s b ha, ppuRead_palette _ hc, ppuRead_palette s hc]
  exact Memory.read_write _ _ b (Memory.wf_of_fits hpalette)

/-- A palette write leaves the bytes below $3F00. -/
theorem ppuRead_ppuWrite_below_palette {c : Addr} (b : Byte) (ha : 0x3F00 ≤ a.toNat % 0x4000)
    (hc : c.toNat % 0x4000 < 0x3F00) : ppuRead c (ppuWrite a b s) = ppuRead c s := by
  rw [ppuWrite_palette s b ha]
  by_cases h : c.toNat % 0x4000 < 0x2000
  · rw [ppuRead_pattern _ h, ppuRead_pattern s h]
    rfl
  · rw [ppuRead_nametable _ (by omega) hc, ppuRead_nametable s (by omega) hc]
    rfl

end Space

/-- The palette entry that the address `n` of $3F00-$3FFF names. -/
def paletteEntry (n : Nat) : Nat := if n % 4 = 0 then n % 16 else n % 32

/-- `ppuRead_ppuWrite_palette`, for addresses given as numbers. -/
theorem ppuRead_ppuWrite_entry {s : State} {m n : Nat} (b : Byte) (hs : MemoriesFit s)
    (hm : 0x3F00 ≤ m ∧ m < 0x4000) (hn : 0x3F00 ≤ n ∧ n < 0x4000) :
    ppuRead (BitVec.ofNat 16 m) (ppuWrite (BitVec.ofNat 16 n) b s) =
      if paletteEntry m = paletteEntry n then b else ppuRead (BitVec.ofNat 16 m) s := by
  have hnat {x : Nat} (hx : x < 0x4000) : (BitVec.ofNat 16 x).toNat = x := by
    rw [BitVec.toNat_ofNat]
    omega
  have hpal {x : Nat} (hx : 0x3F00 ≤ x ∧ x < 0x4000) : 0x3F00 ≤ (BitVec.ofNat 16 x).toNat % 0x4000 := by
    rw [hnat hx.2]
    omega
  rw [ppuRead_ppuWrite_palette s b hs (hpal hn) (hpal hm), palIndex_eq, palIndex_eq, hnat hm.2, hnat hn.2]
  rfl

/-- Two addresses name one palette entry if they agree modulo 32, or modulo 16 at the aliased backdrops. -/
theorem paletteEntry_eq_iff (m n : Nat) :
    paletteEntry m = paletteEntry n ↔ if m % 4 = 0 then m % 16 = n % 16 else m % 32 = n % 32 := by
  unfold paletteEntry
  split <;> split <;> omega

/-- Settles O52: two addresses that share an entry, by a backdrop or by repetition, have one palette index. -/
theorem paletteMirrors : Obligations.PaletteMirrors := by
  intro s b k j l n hs hk hj hl hn
  have hfit := ((state_inv_iff s).1 hs).2.memoriesFit
  refine ⟨?_, ?_, ?_, fun hne halias => ?_, fun a ha => ?_, fun a => ?_⟩
  · rw [ppuRead_ppuWrite_entry b hfit (by omega) (by omega), if_pos]
    rw [paletteEntry_eq_iff, if_pos (by omega)]
    omega
  · rw [ppuRead_ppuWrite_entry b hfit (by omega) (by omega), if_pos]
    rw [paletteEntry_eq_iff, if_pos (by omega)]
    omega
  · rw [ppuRead_ppuWrite_entry b hfit (by omega) (by omega), if_pos]
    rw [paletteEntry_eq_iff]
    split <;> omega
  · rw [ppuRead_ppuWrite_entry b hfit (by omega) (by omega), if_neg]
    rw [paletteEntry_eq_iff]
    split <;> omega
  · have hj' : (BitVec.ofNat 16 (0x3F00 + j)).toNat = 0x3F00 + j := by
      rw [BitVec.toNat_ofNat]
      omega
    exact ppuRead_ppuWrite_below_palette s b (by omega) ha
  · unfold ppuRead ppuWrite
    rw [ppuAddr_add]
    exact ⟨rfl, rfl⟩

/-! ### The nametables and the pattern memory (spec/20_memory.md R81 to R84) -/

/-- The half of the nametable storage that table `i` uses (R84): horizontal mirroring shares 0 with 1 and 2 with 3, vertical
0 with 2 and 1 with 3. -/
def tableHalf : Mirroring → Nat → Nat
  | .horizontal, i => i / 2
  | .vertical, i => i % 2

/-- The cell of the storage that holds offset `o` of table `i`, seen from $2000 or from its mirror at $3000. -/
theorem ntIndex_table (m : Mirroring) {base i o : Nat} (hbase : base = 0x2000 ∨ base = 0x3000) (hi : i < 4)
    (ho : o < 0x400) :
    ntIndex m (ppuAddr (BitVec.ofNat 16 (base + 0x400 * i + o))) = tableHalf m i * 0x400 + o := by
  have haddr : (ppuAddr (BitVec.ofNat 16 (base + 0x400 * i + o))).toNat = base + 0x400 * i + o := by
    rw [ppuAddr_toNat, BitVec.toNat_ofNat]
    omega
  have hbit (n : Nat) : ((ppuAddr (BitVec.ofNat 16 (base + 0x400 * i + o))).getLsbD n).toNat =
      (base + 0x400 * i + o) / 2 ^ n % 2 := (Nat.toNat_testBit _ n).trans (by rw [haddr])
  unfold ntIndex
  cases m <;> dsimp only [tableHalf] <;> rw [hbit, haddr] <;> omega

section Tables
variable {s : State} {a c : Addr} (b : Byte)

/-- A nametable byte after a nametable write: read back where the two addresses name one byte of the storage. -/
theorem ppuRead_ppuWrite_nametable (hs : MemoriesFit s) (ha : 0x2000 ≤ a.toNat % 0x4000)
    (ha' : a.toNat % 0x4000 < 0x3F00) (hc : 0x2000 ≤ c.toNat % 0x4000) (hc' : c.toNat % 0x4000 < 0x3F00) :
    ppuRead c (ppuWrite a b s) = if ntIndex s.cfg.mirroring (ppuAddr c) = ntIndex s.cfg.mirroring (ppuAddr a) then b
      else ppuRead c s := by
  obtain ⟨-, -, -, -, hvram, -, -⟩ := hs
  rw [ppuWrite_nametable s b ha ha', ppuRead_nametable _ hc hc', ppuRead_nametable s hc hc']
  exact Memory.read_write _ _ b (Memory.wf_of_fits hvram)

/-- A nametable write leaves the pattern memory and the palette. -/
theorem ppuRead_ppuWrite_beside_nametables (ha : 0x2000 ≤ a.toNat % 0x4000) (ha' : a.toNat % 0x4000 < 0x3F00)
    (hc : c.toNat % 0x4000 < 0x2000 ∨ 0x3F00 ≤ c.toNat % 0x4000) : ppuRead c (ppuWrite a b s) = ppuRead c s := by
  rw [ppuWrite_nametable s b ha ha']
  rcases hc with hc | hc
  · rw [ppuRead_pattern _ hc, ppuRead_pattern s hc]
    rfl
  · rw [ppuRead_palette _ hc, ppuRead_palette s hc]
    rfl

/-- With CHR-RAM, a pattern byte after a pattern write. -/
theorem ppuRead_ppuWrite_pattern (hs : MemoriesFit s) (hram : s.cfg.chrIsRam = true) (ha : a.toNat % 0x4000 < 0x2000)
    (hc : c.toNat % 0x4000 < 0x2000) :
    ppuRead c (ppuWrite a b s) = if c.toNat % 0x4000 = a.toNat % 0x4000 then b else ppuRead c s := by
  obtain ⟨-, -, hchrRam, -⟩ := hs
  rw [ppuWrite_pattern s b ha, ppuRead_pattern _ hc, ppuRead_pattern s hc, if_pos hram, if_pos hram]
  exact (if_pos hram).trans (Memory.read_write _ _ b (Memory.wf_of_fits hchrRam))

/-- A pattern write leaves the bytes from $2000. -/
theorem ppuRead_ppuWrite_above_pattern (ha : a.toNat % 0x4000 < 0x2000) (hc : 0x2000 ≤ c.toNat % 0x4000) :
    ppuRead c (ppuWrite a b s) = ppuRead c s := by
  rw [ppuWrite_pattern s b ha]
  by_cases hc' : c.toNat % 0x4000 < 0x3F00
  · rw [ppuRead_nametable _ hc hc', ppuRead_nametable s hc hc']
    split <;> rfl
  · rw [ppuRead_palette _ (by omega), ppuRead_palette s (by omega)]
    split <;> rfl

/-- Everything a pattern write does, with CHR-RAM and without (R83, D24). -/
theorem patternMemory (hs : MemoriesFit s) (ha : a.toNat % 0x4000 < 0x2000) :
    (s.cfg.chrIsRam = false → ppuWrite a b s = s) ∧
      (s.cfg.chrIsRam = true → ppuWrite a b s = s.setChrRam (ppuWrite a b s).chrRam ∧ ppuRead a (ppuWrite a b s) = b ∧
        ∀ c : Addr, c.toNat % 0x4000 ≠ a.toNat % 0x4000 → ppuRead c (ppuWrite a b s) = ppuRead c s) := by
  refine ⟨fun hrom => ?_, fun hram => ⟨?_, ?_, fun c hne => ?_⟩⟩
  · rw [ppuWrite_pattern s b ha, if_neg (by simp [hrom])]
  · rw [ppuWrite_pattern s b ha, if_pos hram]
    rfl
  · rw [ppuRead_ppuWrite_pattern b hs hram ha ha, if_pos rfl]
  · by_cases hc : c.toNat % 0x4000 < 0x2000
    · rw [ppuRead_ppuWrite_pattern b hs hram ha hc, if_neg hne]
    · exact ppuRead_ppuWrite_above_pattern b ha (by omega)

end Tables

/-- Settles O53: two tables share exactly when they use the same half of the storage. -/
theorem nametablesShare : Obligations.NametablesShare := by
  intro s b i j o p hs hi hj ho hp t share
  have hfit := ((state_inv_iff s).1 hs).2.memoriesFit
  have hnat {x : Nat} (hx : x < 0x4000) : (BitVec.ofNat 16 x).toNat = x := by
    rw [BitVec.toNat_ofNat]
    omega
  have ha := hnat (x := 0x2000 + 0x400 * i + o) (by omega)
  have hc := hnat (x := 0x2000 + 0x400 * j + p) (by omega)
  have hshare : share ↔ tableHalf s.cfg.mirroring i = tableHalf s.cfg.mirroring j := by
    dsimp only [share]
    cases s.cfg.mirroring <;> rfl
  have hcell : share ∧ o = p ↔
      tableHalf s.cfg.mirroring j * 0x400 + p = tableHalf s.cfg.mirroring i * 0x400 + o := by
    rw [hshare]
    omega
  have hread := ppuRead_ppuWrite_nametable (a := BitVec.ofNat 16 (0x2000 + 0x400 * i + o))
    (c := BitVec.ofNat 16 (0x2000 + 0x400 * j + p)) b hfit (by omega) (by omega) (by omega) (by omega)
  rw [ntIndex_table _ (.inl rfl) hi ho, ntIndex_table _ (.inl rfl) hj hp] at hread
  refine ⟨fun h => ?_, fun h => ?_, fun hlt => ?_, fun a => ?_, fun a ha => ⟨ppuRead_pattern s ha, patternMemory b hfit ha⟩⟩
  · exact hread.trans (if_pos (hcell.1 h))
  · exact hread.trans (if_neg (mt hcell.2 h))
  · have hmirror := hnat (x := 0x3000 + 0x400 * j + p) (by omega)
    rw [ppuRead_nametable t (by omega) (by omega), ppuRead_nametable t (by omega) (by omega),
      ntIndex_table _ (.inr rfl) hj hp, ntIndex_table _ (.inl rfl) hj hp]
  · exact ppuRead_ppuWrite_beside_nametables b (by omega) (by omega)

/-! ### Cycles (spec/40_fetch_decode_addressing.md R157, R158) -/

theorem encode_length (i : Instr) : (encode i).length = i.row.length := by cases i <;> rfl

/-- Every row's cycles and page-cross column are those of its mode and access class (R126). -/
theorem timing_row (i : Instr) : timing i.row.mnemonic i.row.mode = some (i.row.cycles, i.row.penalty) := by
  cases i <;> rfl

theorem rowCycles_eq (i : Instr) (crossed : Bool) :
    rowCycles i crossed = i.row.cycles + if i.row.penalty = .cross ∧ crossed = true then 1 else 0 := by
  unfold rowCycles
  cases i.row.penalty <;> cases crossed <;> rfl

theorem rowCycles_false (i : Instr) : rowCycles i false = i.row.cycles := by simp [rowCycles_eq]

theorem instructionCycles_noPenalty {i : Instr} (s : State) (h : i.row.penalty = .no) :
    instructionCycles i s = rowCycles i false := by
  unfold instructionCycles extraCycles rowCycles
  rw [h]

theorem store_penalty {i : Instr} (h : storesToOperand i.row.mnemonic = true) : i.row.penalty = .no := by
  cases i <;> first
    | rfl
    | cases h

theorem immediate_penalty {i : Instr} (h : i.row.mode = .immediate) : i.row.penalty = .no := by
  cases i <;> first
    | rfl
    | cases h

/-- A read-class instruction returns its row's cycles, with the cross of its operand. -/
theorem readOperand_cycles {i : Instr} {s : State} {r : OperandRead} (h : readOperand i s = some r) :
    instructionCycles i s = rowCycles i r.crossed := by
  unfold readOperand at h
  split at h
  · next hmode _ =>
    cases h
    exact instructionCycles_noPenalty s (immediate_penalty hmode)
  · obtain ⟨o, ho, rfl⟩ := Option.map_eq_some_iff.1 h
    rw [instructionCycles_operand s ho, readAt_eq]

theorem two_le_instructionCycles (i : Instr) (s : State) : 2 ≤ instructionCycles i s :=
  (two_le_row_cycles i).trans (Nat.le_add_right _ _)

/-! ### What an operation changes between its bus accesses -/

/-- `t` is `s` but for A, X, Y, S, `P` and `PC`; an operation of ADC, SBC or ISB may draw free values too. -/
def OnlyRegisters (n : Mnemonic) (s t : State) : Prop :=
  t = { s with
    cpu := { t.cpu with cycles := s.cpu.cycles, pending := s.cpu.pending, fault := s.cpu.fault }
    freeCount := t.freeCount } ∧
  (n ≠ .adc → n ≠ .sbc → n ≠ .isb → t.freeCount = s.freeCount)

theorem OnlyRegisters.onlyCpu {n : Mnemonic} {k : Nat} {s t : State} (h : OnlyRegisters n (charge k s) t) :
    OnlyCpu s t := by
  unfold OnlyCpu
  rw [h.1]
  rfl

/-- The end of an instruction moves `PC`, and the charge is made of either state. -/
theorem OnlyRegisters.concluded {n : Mnemonic} {s t : State} (h : OnlyRegisters n s t) (i : Instr) (crossed : Bool) :
    OnlyRegisters n (charge (rowCycles i crossed) s) (concluded i crossed t) := by
  refine ⟨?_, h.2⟩
  conv_lhs => rw [h.1]
  rfl

theorem adc_onlyRegisters (m : Byte) (s : State) : OnlyRegisters .adc s (adc m s) := by
  refine ⟨?_, fun h => absurd rfl h⟩
  unfold adc addDecimal
  split
  · split <;> rfl
  · rfl

theorem sbc_onlyRegisters {n : Mnemonic} (hn : n = .sbc ∨ n = .isb) (m : Byte) (s : State) :
    OnlyRegisters n s (sbc m s) := by
  refine ⟨?_, fun _ hsbc hisb => (hn.elim hsbc hisb).elim⟩
  unfold sbc subDecimal
  split
  · split <;> rfl
  · rfl

theorem readOp_onlyRegisters {n : Mnemonic} {op : Byte → State → State} (h : readOp n = some op) (m : Byte) (s : State) :
    OnlyRegisters n s (op m s) := by
  cases n <;> cases h
  case adc => exact adc_onlyRegisters m s
  case sbc => exact sbc_onlyRegisters (.inl rfl) m s
  all_goals exact ⟨rfl, fun _ _ _ => rfl⟩

theorem rmwOp_onlyRegisters {n : Mnemonic} {res : State → Byte → Byte} {fin : Byte → Byte → State → State}
    (h : rmwOp n = some (res, fin)) (old new : Byte) (s : State) : OnlyRegisters n s (fin old new s) := by
  cases n <;> cases h
  case isb => exact sbc_onlyRegisters (.inr rfl) new s
  all_goals exact ⟨rfl, fun _ _ _ => rfl⟩

/-! ### An instruction by what it stores: nothing, its operand, or bytes on the stack -/

theorem storesByte_false {i : Instr} (h : storesByte i = false) :
    (storesToOperand i.row.mnemonic = true → memOperand i = none) ∧ pushCount i.row.mnemonic = 0 := by
  unfold storesByte at h
  simp only [Bool.or_eq_false_iff, Bool.and_eq_false_imp, Option.isSome_eq_false_iff, Option.isNone_iff_eq_none,
    decide_eq_false_iff_not, Nat.not_lt, Nat.le_zero] at h
  exact h

theorem readOp_stores {n : Mnemonic} {op : Byte → State → State} (h : readOp n = some op) :
    storesToOperand n = false ∧ pushCount n = 0 := by
  cases n <;> first
    | exact ⟨rfl, rfl⟩
    | cases h

theorem writeOp_stores {n : Mnemonic} {v : State → Byte} (h : writeOp n = some v) :
    storesToOperand n = true ∧ pushCount n = 0 := by
  cases n <;> first
    | exact ⟨rfl, rfl⟩
    | cases h

theorem rmwOp_stores {n : Mnemonic} {rf : (State → Byte → Byte) × (Byte → Byte → State → State)}
    (h : rmwOp n = some rf) : storesToOperand n = true ∧ pushCount n = 0 := by
  cases n <;> first
    | exact ⟨rfl, rfl⟩
    | cases h

/-- A branch, by the flag it tests. -/
theorem exec_branch {i : Instr} {f : Flag} {v : Bool} {off : Int} (s : State) (h : branchOf i = some (f, v, off)) :
    exec i s = branchClass (decide (flagOf f s.cpu.p = v)) off s := by
  cases i <;> cases h
  case bcs | beq | bmi | bvs => exact congrArg (branchClass · off s) Bool.decide_eq_true.symm
  case bcc | bne | bpl | bvc => exact congrArg (branchClass · off s) Bool.decide_eq_false.symm

theorem exec_branch_registers {i : Instr} {f : Flag} {v : Bool} {off : Int} {s t : State}
    (h : branchOf i = some (f, v, off)) (ht : exec i s = .next t) (n : Mnemonic) :
    OnlyRegisters n (charge (instructionCycles i s) s) t := by
  rw [exec_branch s h] at ht
  rw [instructionCycles_branch s h]
  by_cases hv : flagOf f s.cpu.p = v
  · rw [decide_eq_true hv] at ht
    cases ht
    rw [if_pos hv, ← Nat.add_assoc]
    exact ⟨rfl, fun _ _ _ => rfl⟩
  · rw [decide_eq_false hv] at ht
    cases ht
    rw [if_neg hv]
    exact ⟨rfl, fun _ _ _ => rfl⟩

/-- The instructions outside the three access classes that push nothing: they read the pointer of a jump, or bytes of the
stack, or nothing. -/
theorem exec_other_noPush {i : Instr} {s t : State} (hr : readOp i.row.mnemonic = none)
    (hw : writeOp i.row.mnemonic = none) (hm : rmwOp i.row.mnemonic = none) (hp : pushCount i.row.mnemonic = 0)
    (ht : exec i s = .next t) :
    ∃ r, OnlyReadEffects s r ∧ OnlyRegisters i.row.mnemonic (charge (instructionCycles i s) r) t := by
  cases i
  case jmpInd addr =>
    cases ht
    exact ⟨_, resolveIndirect_effects addr s, rfl, fun _ _ _ => rfl⟩
  case pla | plp =>
    cases ht
    refine ⟨s, .rfl' s, ?_, fun _ _ _ => ?_⟩ <;> simp only [pullA, pullP, pop_peek] <;> rfl
  case rts =>
    cases ht
    refine ⟨s, .rfl' s, ?_, fun _ _ _ => ?_⟩ <;> rw [pop16_peek] <;> rfl
  case rti =>
    cases ht
    refine ⟨s, .rfl' s, ?_, fun _ _ _ => ?_⟩ <;> rw [returnFromInterrupt_eq] <;> rfl
  case bcc off | bcs off | beq off | bne off | bmi off | bpl off | bvc off | bvs off =>
    exact ⟨s, .rfl' s, exec_branch_registers rfl ht _⟩
  all_goals first
    | (cases hr; done)
    | (cases hw; done)
    | (cases hm; done)
    | (cases hp; done)
    | (cases ht; exact ⟨s, .rfl' s, rfl, fun _ _ _ => rfl⟩)

theorem storesToOperand_eq_false {n : Mnemonic} (hw : writeOp n = none) (hm : rmwOp n = none) :
    storesToOperand n = false := by
  cases n <;> first
    | rfl
    | exact absurd hw (Option.some_ne_none _)
    | exact absurd hm (Option.some_ne_none _)

/-- An instruction that stores nothing reads, works on the registers and charges its cycles. -/
theorem exec_noStore {i : Instr} {s t : State} (h : storesByte i = false) (ht : exec i s = .next t) :
    ∃ r, OnlyReadEffects s r ∧ OnlyRegisters i.row.mnemonic (charge (instructionCycles i s) r) t := by
  obtain ⟨hoperand, hpush⟩ := storesByte_false h
  refine access_cases i.row.mnemonic (fun op hop => ?_) (fun v hv => ?_) (fun res fin hrf => ?_)
    (fun hr hw hm => exec_other_noPush hr hw hm hpush ht)
  · obtain ⟨r, hr, hexec⟩ := exec_read i s op hop
    rw [hexec] at ht
    cases ht
    rw [readOperand_cycles hr]
    exact ⟨r.st, readOperand_effects hr, (readOp_onlyRegisters hop r.value r.st).concluded i r.crossed⟩
  · obtain ⟨o, ho, -⟩ := exec_write i s v hv
    rw [hoperand (writeOp_stores hv).1] at ho
    cases ho
  · have hstores := (rmwOp_stores hrf).1
    obtain ho | hacc := rmw_operand i (by rw [hrf]; rfl)
    · rw [hoperand hstores] at ho
      cases ho
    · rw [exec_acc i s res fin hrf hacc] at ht
      cases ht
      rw [instructionCycles_noPenalty s (store_penalty hstores)]
      exact ⟨s, .rfl' s, OnlyRegisters.concluded (s := s)
        (rmwOp_onlyRegisters hrf s.cpu.a (res s s.cpu.a) (s.setA (res s s.cpu.a))) i false⟩

/-- An instruction that stores to its operand writes one byte at the effective address, after reading the old one there or
nothing, works on the registers and charges its cycles. -/
theorem exec_store {i : Instr} {o : MemOperand} {s t : State} (h : storesToOperand i.row.mnemonic = true)
    (ho : memOperand i = some o) (ht : exec i s = .next t) :
    ∃ r b, OnlyReadEffects s r ∧ (plainCell s.cfg (resolve o s).ea = true → r = s) ∧
      OnlyRegisters i.row.mnemonic (charge (instructionCycles i s) (memWrite (resolve o s).ea b r)) t := by
  rw [instructionCycles_noPenalty s (store_penalty h)]
  refine access_cases i.row.mnemonic (fun op hop => ?_) (fun v hv => ?_) (fun res fin hrf => ?_) (fun _ hw hm => ?_)
  · rw [(readOp_stores hop).1] at h
    cases h
  · obtain ⟨o', ho', hexec⟩ := exec_write i s v hv
    rw [ho] at ho'
    cases ho'
    rw [hexec] at ht
    cases ht
    exact ⟨s, v s, .rfl' s, fun _ => rfl, OnlyRegisters.concluded ⟨rfl, fun _ _ _ => rfl⟩ i false⟩
  · rw [exec_rmw i s o res fin hrf ho, readAt_eq] at ht
    cases ht
    exact ⟨_, _, memRead_effects _ s, memRead_plain_state, (rmwOp_onlyRegisters hrf _ _ _).concluded i false⟩
  · rw [storesToOperand_eq_false hw hm] at h
    cases h

/-- Writing the stack is a bus access without a DMA. -/
theorem memWrite_stack_cycles (sp b : Byte) (s : State) : (memWrite (stackAddr sp) b s).cpu.cycles = s.cpu.cycles := by
  rw [memWrite_cycles, stackAddr, writeCycles_stack, Nat.add_zero]

/-- An instruction that pushes writes the stack, works on the registers and charges its cycles. -/
theorem exec_push {i : Instr} {s t : State} (h : 0 < pushCount i.row.mnemonic) (ht : exec i s = .next t) :
    ∃ r, OnlyBusEffects s r ∧ r.cpu.cycles = s.cpu.cycles ∧
      OnlyRegisters i.row.mnemonic (charge (instructionCycles i s) r) t := by
  cases i
  case pha | php =>
    cases ht
    exact ⟨_, memWrite_effects (stackAddr s.cpu.s) _ s, memWrite_stack_cycles _ _ s, rfl, fun _ _ _ => rfl⟩
  case jsr addr =>
    cases ht
    refine ⟨_, (memWrite_effects (stackAddr s.cpu.s) (hiByte (s.cpu.pc + 1)) s).trans
      (memWrite_effects (stackAddr (s.cpu.s - 1)) (loByte (s.cpu.pc + 1)) _), ?_, ?_, fun _ _ _ => ?_⟩
    · rw [memWrite_stack_cycles, memWrite_stack_cycles]
    all_goals
      rw [push16_eq]
      rfl
  case brk =>
    cases ht
    refine ⟨_, ((memWrite_effects (stackAddr s.cpu.s) (hiByte (s.cpu.pc + 1)) s).trans
      (memWrite_effects (stackAddr (s.cpu.s - 1)) (loByte (s.cpu.pc + 1)) _)).trans
      (memWrite_effects (stackAddr (s.cpu.s - 2)) (imageWithB s.cpu.p) _), ?_, ?_, fun _ _ _ => ?_⟩
    · rw [memWrite_stack_cycles, memWrite_stack_cycles, memWrite_stack_cycles]
    all_goals
      rw [enterHandler_eq (v := irqVector) _ _ (by decide) (by decide)]
      rfl
  all_goals cases h

/-! ### The debt, and what no instruction changes (spec/20_memory.md R95, spec/49_bus_clock_dma.md R395) -/

/-- What the store of an instruction to its operand adds to the debt: the 513 of a DMA, or nothing. -/
def dmaCycles (i : Instr) (s : State) : Nat :=
  match storesToOperand i.row.mnemonic, memOperand i with
  | true, some o => writeCycles s.cfg (resolve o s).ea
  | _, _ => 0

theorem dmaCycles_store {i : Instr} {o : MemOperand} (s : State) (h : storesToOperand i.row.mnemonic = true)
    (ho : memOperand i = some o) : dmaCycles i s = writeCycles s.cfg (resolve o s).ea := by
  simp only [dmaCycles, h, ho]

theorem dmaCycles_noStore {i : Instr} (s : State) (h : storesToOperand i.row.mnemonic = true → memOperand i = none) :
    dmaCycles i s = 0 := by
  unfold dmaCycles
  split
  · next hst ho =>
    rw [h hst] at ho
    cases ho
  · rfl

/-- A DMA is a store to $4014 on the block's bus. -/
theorem dmaCycles_cases (i : Instr) (s : State) :
    let toDma := s.cfg.bus = .system ∧ storesToOperand i.row.mnemonic = true ∧
      ∃ o, memOperand i = some o ∧ (resolve o s).ea = 0x4014
    (toDma → dmaCycles i s = 513) ∧ (¬ toDma → dmaCycles i s = 0) := by
  refine ⟨fun ⟨hbus, hst, o, ho, hea⟩ => ?_, fun hdma => ?_⟩
  · rw [dmaCycles_store s hst ho, writeCycles, if_pos ((route_dmaPort _ _).2 ⟨hbus, hea⟩)]
  · unfold dmaCycles
    split
    · next o hst ho =>
      rw [writeCycles, if_neg]
      rintro hroute
      obtain ⟨hbus, hea⟩ := (route_dmaPort _ _).1 hroute
      exact hdma ⟨hbus, hst, o, ho, hea⟩
    · rfl

theorem pushCount_noStore {n : Mnemonic} (h : 0 < pushCount n) : storesToOperand n = false := by
  cases n <;> first
    | rfl
    | cases h

/-- Every instruction makes its bus accesses, works on the registers and charges its cycles; a DMA among the accesses adds
its own. -/
theorem exec_charges {i : Instr} {s t : State} (ht : exec i s = .next t) :
    ∃ r, OnlyBusEffects s r ∧ r.cpu.cycles = s.cpu.cycles + dmaCycles i s ∧
      OnlyRegisters i.row.mnemonic (charge (instructionCycles i s) r) t := by
  by_cases hpush : 0 < pushCount i.row.mnemonic
  · obtain ⟨r, hbus, hcycles, hregs⟩ := exec_push hpush ht
    have hdma := dmaCycles_noStore (i := i) s (by simp [pushCount_noStore hpush])
    exact ⟨r, hbus, by rw [hcycles, hdma, Nat.add_zero], hregs⟩
  by_cases hstore : storesToOperand i.row.mnemonic = true ∧ (memOperand i).isSome = true
  · obtain ⟨hst, ho⟩ := hstore
    obtain ⟨o, ho⟩ := Option.isSome_iff_exists.1 ho
    obtain ⟨r, b, hread, -, hregs⟩ := exec_store hst ho ht
    refine ⟨_, hread.bus.trans (memWrite_effects (resolve o s).ea b r), ?_, hregs⟩
    rw [memWrite_cycles, hread.cpu, hread.cfg, dmaCycles_store s hst ho]
  · have hnone : storesByte i = false := by
      unfold storesByte
      simpa [hpush] using hstore
    obtain ⟨r, hread, hregs⟩ := exec_noStore hnone ht
    refine ⟨r, hread.bus, ?_, hregs⟩
    rw [hread.cpu, dmaCycles_noStore s (storesByte_false hnone).1, Nat.add_zero]

/-- The debt after an instruction: every charge is above the bias, so the subtraction takes the bias off (D3). -/
theorem charge_cycles_add_bias {n : Nat} (hn : 2 ≤ n) (s : State) :
    (charge n s).cpu.cycles + s.cfg.debtBias.amount = s.cpu.cycles + n := by
  have hbias := debtBias_amount_le s.cfg.debtBias
  show s.cpu.cycles + n - s.cfg.debtBias.amount + s.cfg.debtBias.amount = _
  omega

theorem exec_debt {i : Instr} {s t : State} (ht : exec i s = .next t) :
    t.cpu.cycles + s.cfg.debtBias.amount = s.cpu.cycles + instructionCycles i s + dmaCycles i s := by
  obtain ⟨r, ⟨hcfg, -⟩, hcycles, hregs, -⟩ := exec_charges ht
  have ht' : t.cpu.cycles = (charge (instructionCycles i s) r).cpu.cycles := by rw [hregs]
  rw [ht', ← hcfg, charge_cycles_add_bias (two_le_instructionCycles i s), hcycles]
  omega

/-- What no instruction changes, and which draw free values. -/
theorem exec_frame {i : Instr} {s t : State} (ht : exec i s = .next t) :
    t.cfg = s.cfg ∧ t.cpu.pending = s.cpu.pending ∧ t.cpu.fault = s.cpu.fault ∧ t.tickCount = s.tickCount ∧
      SameDotState s.ppu t.ppu ∧
      (i.row.mnemonic ≠ .adc → i.row.mnemonic ≠ .sbc → i.row.mnemonic ≠ .isb → t.freeCount = s.freeCount) := by
  obtain ⟨r, ⟨hcfg, hcpu, hdot, htick, hfree⟩, -, hregs, hdraws⟩ := exec_charges ht
  have hpending : r.cpu.pending = s.cpu.pending := by rw [hcpu]
  have hfault : r.cpu.fault = s.cpu.fault := by rw [hcpu]
  refine ⟨?_, ?_, ?_, ?_, ?_, fun hadc hsbc hisb => (hdraws hadc hsbc hisb).trans hfree⟩ <;> rw [hregs]
  · exact hcfg
  · exact hpending
  · exact hfault
  · exact htick
  · exact hdot

theorem instructionCycles_branch_pages {i : Instr} {f : Flag} {v : Bool} {off : Int} (s : State)
    (h : branchOf i = some (f, v, off)) : instructionCycles i s = 2 + if flagOf f s.cpu.p = v then
      1 + (if (branchNext s).toNat / 256 = (branchTarget off s).toNat / 256 then 0 else 1) else 0 := by
  rw [instructionCycles_branch s h, pageDiffers_iff]
  by_cases hpage : (branchNext s).toNat / 256 = (branchTarget off s).toNat / 256 <;> simp [hpage]

/-- Settles O31. -/
theorem instructionsLeaveTheRestAlone : Obligations.InstructionsLeaveTheRestAlone := by
  refine ⟨⟨rfl, rfl⟩, fun _ _ => rfl, fun i crossed s => ?_, timing_row, fun i s t ht => ?_⟩
  · rw [concluded, rowCycles_eq, encode_length]
  · have hdebt := exec_debt ht
    obtain ⟨hdma, hnoDma⟩ := dmaCycles_cases i s
    have htwo := two_le_instructionCycles i s
    have hbias := debtBias_amount_le s.cfg.debtBias
    obtain ⟨hcfg, hpending, hfault, htick, hdot, hfree⟩ := exec_frame ht
    refine ⟨fun o ho => ?_, fun f v off hb => instructionCycles_branch_pages s hb,
      fun ho hb => instructionCycles_plain s ho hb, fun h => ?_, fun h => ?_, hcfg, hpending, hfault, htick, hdot, hfree,
      by omega⟩
    · rw [instructionCycles_operand s ho, rowCycles_eq]
    · rw [hdebt, hdma h]
    · rw [hdebt, hnoDma h, Nat.add_zero]

/-! ### The memories -/

/-- Reads and an operation on the CPU change nothing outside the CPU but by the reads. -/
theorem OnlyReadEffects.outside_cpu {s r t : State} (h : OnlyReadEffects s r) (hcpu : OnlyCpu r t) :
    OnlyReadEffects (s.setCpu t.cpu) (t.setFreeCount s.freeCount) := by
  obtain ⟨hr, hstatus, hw⟩ := h
  have hppu : t.ppu = r.ppu := by rw [hcpu]
  refine ⟨?_, hppu ▸ hstatus, hppu ▸ hw⟩
  rw [State.setFreeCount_ppu, hppu]
  conv_lhs => rw [hcpu, hr]
  rfl

/-- An operation on the CPU leaves every byte. -/
theorem OnlyCpu.peek {s t : State} (h : OnlyCpu s t) {a : Addr} (ha : plainCell s.cfg a = true) :
    Machine.peek a t = Machine.peek a s :=
  peek_plain_congr (by rw [h]) (by rw [h]) (by rw [h]) (by rw [h]) ha

/-- Settles O32. -/
theorem memoryKeptByInstructionsThatStoreNothing : Obligations.MemoryKeptByInstructionsThatStoreNothing := by
  intro i s t ht hstore
  obtain ⟨r, hread, hregs⟩ := exec_noStore hstore ht
  refine ⟨hread.outside_cpu hregs.onlyCpu, fun a ha => ?_⟩
  rw [hregs.onlyCpu.peek (hread.cfg ▸ ha), hread.peek ha]

/-- Settles O33: the old byte is read before the store, which at a plain cell has no effect. -/
theorem memoryKeptBesideTheStoredByte : Obligations.MemoryKeptBesideTheStoredByte := by
  intro i o s t hst ho ht
  obtain ⟨r, b, hread, hstate, hregs⟩ := exec_store hst ho ht
  have hcpu : OnlyCpu (memWrite (resolve o s).ea b r) t := hregs.onlyCpu
  refine ⟨fun a ha hne => ?_, fun hplain => ?_⟩
  · have ha' : plainCell (memWrite (resolve o s).ea b r).cfg a = true := by rwa [memWrite_cfg, hread.cfg]
    rw [hcpu.peek ha', peek_memWrite_other b (hread.cfg ▸ ha) (hread.cfg ▸ hne), hread.peek ha]
  · rw [hcpu, hstate hplain]
    exact memWrite_plain_ppu b hplain

end Sys2Proof.Machine

/-! SUPPORT. The statements of the family 30_encoding: the round trip between decoder and encoder (O1, O2), words of the
opcode table (O3), the illegal bytes (O4). First the table: it answers the instruction exactly when the opcode and operand
bytes encode it (`EncodedBy`). From this `decode_eq_ok_iff`, whose two directions are the round trip. -/

namespace Sys2Proof.Machine

/-! ### The table's answer (spec/30_encoding.md R121, R122, R126) -/

/-- `i` is well formed, and its encoding is `op` and as many of `b1`, `b2` as it has operand bytes. -/
def EncodedBy (i : Instr) (op b1 b2 : Byte) : Prop :=
  i.wf = true ∧ i.row.opcode = op ∧ i.operandBytes = [b1, b2].take i.operandBytes.length

/-- The table finds an instruction from its own encoding: the byte of a branch gives its offset back, the two bytes of an
address the address. -/
theorem instrOf_of_encodedBy {i : Instr} {op b1 b2 : Byte} (h : EncodedBy i op b1 b2) : instrOf op b1 b2 = some i := by
  obtain ⟨hwf, hop, hbytes⟩ := h
  cases i <;> dsimp only [Instr.row] at hop <;> cases hop <;> cases hbytes <;> first
    | rfl -- no operand, or its one byte
    | exact Eq.trans (b := some _) rfl (by rw [toInt_ofInt_of_fits hwf]) -- the offset of a branch
    | exact Eq.trans (b := some _) rfl (by rw [word_hiByte_loByte]) -- an address

/-- What the table answers is encoded by the bytes it was given. The opcode is its row and its column of the grid (R131),
so the split is along the decoder's rows. -/
theorem encodedBy_of_instrOf {i : Instr} {op b1 b2 : Byte} (h : instrOf op b1 b2 = some i) : EncodedBy i op b1 b2 := by
  have hop : BitVec.ofNat 8 (16 * (op.toNat / 16) + op.toNat % 16) = op := by
    rw [Nat.div_add_mod, BitVec.ofNat_toNat, BitVec.setWidth_eq]
  unfold instrOf at h
  generalize op.toNat / 16 = row at h hop
  generalize op.toNat % 16 = column at h hop
  subst hop
  split at h <;> simp only [decodeRow0, decodeRow1, decodeRow2, decodeRow3, decodeRow4, decodeRow5, decodeRow6, decodeRow7,
    decodeRow8, decodeRow9, decodeRowA, decodeRowB, decodeRowC, decodeRowD, decodeRowE, decodeRowF, reduceCtorEq] at h
  all_goals
    split at h <;> cases h <;> first
      | exact ⟨rfl, rfl, rfl⟩ -- no operand, or its one byte
      | exact ⟨offsetFits_toInt _, rfl, congrArg (fun b => [b]) (ofInt_toInt _)⟩ -- the offset of a branch
      | exact ⟨rfl, rfl, congrArg₂ (fun lo hi => [lo, hi]) (loByte_word _ _) (hiByte_word _ _)⟩ -- an address

/-- Every instruction's encoding has the shape that Laws/PerInstr states (R120). -/
theorem encodeForm (i : Instr) : Laws.EncodeForm.Statement i := by
  cases i <;> dsimp only [Laws.EncodeForm.Statement, Instr.row] <;> exact ⟨rfl, rfl, rfl, fun _ _ => ⟨_, rfl, rfl⟩⟩

theorem lengthOf_of_instrOf {i : Instr} {op b1 b2 : Byte} (h : instrOf op b1 b2 = some i) :
    lengthOf op = i.operandBytes.length + 1 := by
  obtain ⟨-, rfl, -⟩ := encodedBy_of_instrOf h
  obtain ⟨-, hencode, hlength, -⟩ := encodeForm i
  rw [hlength, ← hencode, encode, List.length_cons]

/-- The opcode alone decides whether there is an instruction (R127). -/
theorem instrOf_eq_none_iff (op b1 b2 : Byte) : instrOf op b1 b2 = none ↔ instrOf op 0 0 = none := by
  have key (b1 b2 c1 c2 : Byte) (hnone : instrOf op c1 c2 = none) : instrOf op b1 b2 = none := by
    rw [Option.eq_none_iff_forall_ne_some]
    rintro i h
    obtain ⟨-, rfl, -⟩ := encodedBy_of_instrOf h
    obtain ⟨-, -, -, hsome⟩ := encodeForm i
    obtain ⟨j, hj, -⟩ := hsome c1 c2
    simp [hj] at hnone
  exact ⟨key _ _ _ _, key _ _ _ _⟩

/-! ### `decode` (spec/30_encoding.md R120) -/

theorem decode_finish_eq_ok_iff {op b1 b2 : Byte} {tail rest : List Byte} {i : Instr} :
    decode.finish op b1 b2 tail = .ok (i, rest) ↔ instrOf op b1 b2 = some i ∧ tail = rest := by
  unfold decode.finish
  cases instrOf op b1 b2 <;> simp

/-- The decoder takes as many operand bytes as the opcode's length asks for, and hands them to the table, with 0 for the
bytes the instruction does not have. -/
theorem decode_cons_append {op : Byte} {operand : List Byte} (hlength : lengthOf op = operand.length + 1)
    (htwo : operand.length ≤ 2) (rest : List Byte) :
    decode (op :: (operand ++ rest)) = decode.finish op (operand.getD 0 0) (operand.getD 1 0) rest := by
  match operand, htwo, hlength with
  | [], _, hlength | [_], _, hlength | [_, _], _, hlength => simp [decode, hlength]

/-- Bytes that decode are an opcode, as many operand bytes as its length asks for, and the rest. -/
theorem split_of_decode {bytes rest : List Byte} {i : Instr} (h : decode bytes = .ok (i, rest)) :
    ∃ op operand, bytes = op :: (operand ++ rest) ∧ lengthOf op = operand.length + 1 ∧ operand.length ≤ 2 ∧
      instrOf op (operand.getD 0 0) (operand.getD 1 0) = some i := by
  cases bytes with
  | nil => cases h
  | cons op tail =>
    dsimp only [decode] at h
    split at h
    case h_1 b1 b2 tail hlength =>
      obtain ⟨hi, rfl⟩ := decode_finish_eq_ok_iff.1 h
      exact ⟨op, [b1, b2], rfl, hlength, le_rfl, hi⟩
    case h_2 b1 tail hlength =>
      obtain ⟨hi, rfl⟩ := decode_finish_eq_ok_iff.1 h
      exact ⟨op, [b1], rfl, hlength, one_le_two, hi⟩
    case h_3 hlength =>
      obtain ⟨hi, rfl⟩ := decode_finish_eq_ok_iff.1 h
      exact ⟨op, [], rfl, hlength, Nat.zero_le _, hi⟩
    case h_4 => cases h

theorem operandBytes_length_le_two (i : Instr) : i.operandBytes.length ≤ 2 := by
  cases i <;> exact Nat.le_of_ble_eq_true rfl

/-- At most two operand bytes are the first of the two bytes the table is given. -/
theorem take_getD_of_length_le_two {operand : List Byte} (htwo : operand.length ≤ 2) :
    [operand.getD 0 0, operand.getD 1 0].take operand.length = operand := by
  match operand, htwo with
  | [], _ | [_], _ | [_, _], _ => rfl

theorem decode_eq_ok_iff {bytes rest : List Byte} {i : Instr} :
    decode bytes = .ok (i, rest) ↔ i.wf = true ∧ encode i ++ rest = bytes := by
  constructor
  · intro h
    obtain ⟨op, operand, rfl, hlength, htwo, hi⟩ := split_of_decode h
    obtain ⟨hwf, rfl, hbytes⟩ := encodedBy_of_instrOf hi
    have hsame : i.operandBytes.length = operand.length :=
      Nat.succ.inj ((lengthOf_of_instrOf hi).symm.trans hlength)
    rw [hsame, take_getD_of_length_le_two htwo] at hbytes
    exact ⟨hwf, by rw [encode, hbytes, List.cons_append]⟩
  · rintro ⟨hwf, rfl⟩
    have htwo := operandBytes_length_le_two i
    have hi := instrOf_of_encodedBy ⟨hwf, rfl, (take_getD_of_length_le_two htwo).symm⟩
    rw [encode, List.cons_append, decode_cons_append (lengthOf_of_instrOf hi) htwo]
    exact decode_finish_eq_ok_iff.2 ⟨hi, rfl⟩

/-- Settles O1: from the encoding to the decoder's answer. -/
theorem decodeInvertsEncode : Obligations.DecodeInvertsEncode :=
  fun _ _ hwf => decode_eq_ok_iff.2 ⟨hwf, rfl⟩

/-- Settles O2: from the decoder's answer to the encoding. -/
theorem encodeInvertsDecode : Obligations.EncodeInvertsDecode :=
  fun _ _ _ => decode_eq_ok_iff.1

/-! ### Words of the table and the illegal bytes (spec/30_encoding.md R126, R127) -/

/-- Settles O3: the decoder evaluates on each word, whatever its operand bytes. -/
theorem opcodeTableWords : Obligations.OpcodeTableWords := by
  intro lo hi rest
  and_intros <;> rfl

/-- Settles O4: the operand bytes have no part in it, and the 256 opcode bytes are tried with the operand 0. -/
theorem illegalBytes : Obligations.IllegalBytes := by
  intro op b1 b2
  rw [instrOf_eq_none_iff]
  revert op
  decide

end Sys2Proof.Machine

/-! SUPPORT. The statements of the family 40_fetch_decode_addressing: the whole next state of each instruction (O12 to
O27), the interrupt entry (O42), the effective addresses (O28), the fetch and the step (O5). The access classes are those
of Laws/Classes; what is proved here is the operation of each instruction in the words of the statements. -/

namespace Sys2Proof.Machine

/-! ### Stores (spec/41_load_store_transfer.md R173 to R175, spec/46_undocumented.md R307) -/

/-- Settles O12: each of the four mnemonics is of the write class, with its byte. -/
theorem storesComplete : Obligations.StoresComplete := by
  intro i s v h
  have hstore (f : State → Byte) (hf : writeOp i.row.mnemonic = some f) : ∃ o, memOperand i = some o ∧
      exec i s = .next (concluded i false (memWrite (resolve o s).ea (f s) (resolve o s).st)) := by
    simpa only [resolve_st] using exec_write i s f hf
  rcases h with ⟨hi, rfl⟩ | ⟨hi, rfl⟩ | ⟨hi, rfl⟩ | ⟨hi, rfl⟩
  · exact hstore regA (by rw [hi]; rfl)
  · exact hstore regX (by rw [hi]; rfl)
  · exact hstore regY (by rw [hi]; rfl)
  · exact hstore regAandX (by rw [hi]; rfl)

/-! ### Transfers and the stack (R180 to R187; spec/42_stack.md R200 to R206) -/

/-- Settles O13: each transfer is a register update and SetNZ of the value moved. -/
theorem transfersComplete : Obligations.TransfersComplete := fun s =>
  ⟨⟨_, nzFrom_putNZ s.cpu.a s.cpu.p, rfl⟩, ⟨_, nzFrom_putNZ s.cpu.a s.cpu.p, rfl⟩,
    ⟨_, nzFrom_putNZ s.cpu.x s.cpu.p, rfl⟩, ⟨_, nzFrom_putNZ s.cpu.y s.cpu.p, rfl⟩,
    ⟨_, nzFrom_putNZ s.cpu.s s.cpu.p, rfl⟩, rfl⟩

/-- A push as a write and the new S. -/
theorem push_memWrite (b : Byte) (s : State) : push b s = (memWrite (stackAddr s.cpu.s) b s).setS (s.cpu.s - 1) := by
  rw [push, memWrite_s]

/-- A pulled status has B clear, U set, and every other flag of the byte (R206). -/
theorem pulledStatus_flags (b : Byte) : SameFlagsBut [.b, .u] b (pulledStatus b) := by
  intro f hf
  simp only [List.mem_cons, List.not_mem_nil, or_false, not_or] at hf
  rw [flagOf_pulledStatus, if_neg hf.1, if_neg hf.2]

/-- PLA pulls a byte and loads it (R205). -/
theorem pullA_eq (s : State) : pullA s = ((s.setS (s.cpu.s + 1)).setA (peek (stackAddr (s.cpu.s + 1)) s)).setP
    (putNZ (peek (stackAddr (s.cpu.s + 1)) s) s.cpu.p) := by
  rw [pullA, pop_peek]
  rfl

/-- PLP pulls the status (R206). -/
theorem pullP_eq (s : State) :
    pullP s = (s.setS (s.cpu.s + 1)).setP (pulledStatus (peek (stackAddr (s.cpu.s + 1)) s)) := by
  rw [pullP, pop_peek]

/-- An instruction of one byte whose operation is `op`, in the words of the statements. -/
theorem exec_implied {i : Instr} {s t : State} {op : State → State} (h : exec i s = implied i.row.cycles op s)
    (hlength : i.row.length = 1) (hop : op s = t) :
    exec i s = .next (concluded i false t) := by
  rw [h, implied, hop, concluded, rowCycles_false, hlength]
  rfl

/-- Settles O14, by the equations of push and pull. -/
theorem stackInstructionsComplete : Obligations.StackInstructionsComplete := by
  intro s m
  obtain ⟨hu, hb⟩ := pulledStatus_inv m
  refine ⟨?_, ?_, ⟨putNZ m s.cpu.p, nzFrom_putNZ _ _, ?_⟩, ⟨pulledStatus m, hb, hu, pulledStatus_flags m, ?_⟩⟩
  · exact exec_implied (op := pushA) rfl rfl (push_memWrite s.cpu.a s)
  · exact exec_implied (op := pushP) rfl rfl (push_memWrite (imageWithB s.cpu.p) s)
  · exact exec_implied (op := pullA) rfl rfl (pullA_eq s)
  · exact exec_implied (op := pullP) rfl rfl (pullP_eq s)

theorem SameFlagsBut.mono {fs gs : List Flag} {p q : Byte} (hsub : ∀ f ∈ fs, f ∈ gs) (h : SameFlagsBut fs p q) :
    SameFlagsBut gs p q := fun f hf => h f fun hmem => hf (hsub f hmem)

/-! ### Logic and compares (spec/44_logic_shift.md R240 to R243, spec/43_arithmetic_compare.md R215 to R218) -/

/-- A read-class instruction, with the operand's state as the reads leave it: the CPU is that of `s`. -/
theorem exec_read_cpu {i : Instr} {op : Byte → State → State} (s : State) (h : readOp i.row.mnemonic = some op) :
    ∃ r, readOperand i s = some r ∧ r.st.cpu = s.cpu ∧ exec i s = .next (concluded i r.crossed (op r.value r.st)) := by
  obtain ⟨r, hr, hexec⟩ := exec_read i s op h
  exact ⟨r, hr, (readOperand_effects hr).cpu, hexec⟩

/-- A read-class instruction that puts `f A m` into A and sets N and Z from it. -/
theorem exec_logic {i : Instr} {op : Byte → State → State} {f : Byte → Byte → Byte} (s : State)
    (h : readOp i.row.mnemonic = some op) (hop : ∀ m t, op m t = loadA (f t.cpu.a m) t) :
    ∃ r q, readOperand i s = some r ∧ NZFrom (f s.cpu.a r.value) s.cpu.p q ∧
      exec i s = .next (concluded i r.crossed ((r.st.setA (f s.cpu.a r.value)).setP q)) := by
  obtain ⟨r, hr, hcpu, hexec⟩ := exec_read_cpu s h
  refine ⟨r, _, hr, nzFrom_putNZ _ _, ?_⟩
  rw [hexec, hop, ← hcpu]
  rfl

/-- Settles O19: each of the three mnemonics is `exec_logic` of its operation on bytes. -/
theorem logicComplete : Obligations.LogicComplete := by
  intro i s
  refine ⟨fun h => ?_, fun h => ?_, fun h => ?_⟩
  · exact exec_logic (op := andA) (f := (· &&& ·)) s (by rw [h]; rfl) fun _ _ => rfl
  · exact exec_logic (op := oraA) (f := (· ||| ·)) s (by rw [h]; rfl) fun _ _ => rfl
  · exact exec_logic (op := eorA) (f := (· ^^^ ·)) s (by rw [h]; rfl) fun _ _ => rfl

theorem cnzFrom_of_nzFrom {c : Bool} {v p q : Byte} (h : NZFrom v p q) : CNZFrom c v p (putFlag .c c q) := by
  obtain ⟨hn, hz, hkeep⟩ := h
  refine ⟨flagOf_putFlag_same _ _ _, ?_, ?_, fun f hc hfn hfz => ?_⟩
  · rwa [flagOf_putFlag_other (by decide)]
  · rwa [flagOf_putFlag_other (by decide)]
  · rw [flagOf_putFlag_other hc, hkeep f hfn hfz]

/-- `Compare(r, m)` in the words of the statements (R215). -/
theorem cnzFrom_compareStatus (r m p : Byte) :
    CNZFrom (decide (m.toNat ≤ r.toNat)) (r - m) p (compareStatus r m p) := cnzFrom_of_nzFrom (nzFrom_putNZ _ _)

/-- A read-class instruction that compares the register `reg` with its operand. -/
theorem exec_compare {i : Instr} {op : Byte → State → State} {reg : Cpu → Byte} (s : State)
    (h : readOp i.row.mnemonic = some op) (hop : ∀ m t, op m t = t.setP (compareStatus (reg t.cpu) m t.cpu.p)) :
    ∃ r q, readOperand i s = some r ∧
      CNZFrom (decide (r.value.toNat ≤ (reg s.cpu).toNat)) (reg s.cpu - r.value) s.cpu.p q ∧
      exec i s = .next (concluded i r.crossed (r.st.setP q)) := by
  obtain ⟨r, hr, hcpu, hexec⟩ := exec_read_cpu s h
  refine ⟨r, _, hr, cnzFrom_compareStatus _ _ _, ?_⟩
  rw [hexec, hop, hcpu]

/-- Settles O17: each of the three mnemonics is `exec_compare` of its register. -/
theorem comparesComplete : Obligations.ComparesComplete := by
  rintro i s v (⟨h, rfl⟩ | ⟨h, rfl⟩ | ⟨h, rfl⟩)
  · exact exec_compare (op := compareA) (reg := Cpu.a) s (by rw [h]; rfl) fun _ _ => rfl
  · exact exec_compare (op := compareX) (reg := Cpu.x) s (by rw [h]; rfl) fun _ _ => rfl
  · exact exec_compare (op := compareY) (reg := Cpu.y) s (by rw [h]; rfl) fun _ _ => rfl

theorem flagOf_bitStatus (f : Flag) (a m p : Byte) : flagOf f (bitStatus a m p) =
    if f = .v then m.getLsbD 6 else if f = .n then m.getLsbD 7 else if f = .z then a &&& m == 0 else flagOf f p := by
  simp only [bitStatus, flagOf_putFlag]

/-- Settles O20, by the flags of the status BIT leaves. -/
theorem bitComplete : Obligations.BitComplete := by
  intro i s h
  obtain ⟨r, hr, hcpu, hexec⟩ := exec_read_cpu (op := bitTest) s (by rw [h]; rfl)
  refine ⟨r, bitStatus s.cpu.a r.value s.cpu.p, hr, flagOf_bitStatus .z _ _ _, flagOf_bitStatus .n _ _ _,
    flagOf_bitStatus .v _ _ _, bitStatus_flags _ _ _, ?_⟩
  rw [hexec, bitTest, hcpu]

/-! ### Increments, shifts and rotates (R220 to R225, spec/44_logic_shift.md R244 to R248) -/

/-- The result byte of a read-modify-write depends on the state through the carry alone. -/
theorem rmwOp_result_congr {n : Mnemonic} {res : State → Byte → Byte} {fin : Byte → Byte → State → State} {s t : State}
    (h : rmwOp n = some (res, fin)) (hcpu : t.cpu = s.cpu) (m : Byte) : res t m = res s m := by
  cases n <;> cases h
  case rol => rw [rolByte, rolByte, State.flag, State.flag, hcpu]
  case ror => rw [rorByte, rorByte, State.flag, State.flag, hcpu]
  all_goals rfl

/-- The memory form of a read-modify-write whose last part writes the status alone, from the new byte, A and the status
before. -/
theorem exec_rmw_status {i : Instr} {o : MemOperand} {res : State → Byte → Byte} {fin : Byte → Byte → State → State}
    {m : Byte} {status : Byte → Byte → Byte → Byte} (s : State) (h : rmwOp i.row.mnemonic = some (res, fin))
    (ho : memOperand i = some o) (hm : m = (readAt o s).value)
    (hfin : ∀ new t, fin m new t = t.setP (status new t.cpu.a t.cpu.p)) :
    exec i s = .next (concluded i false ((memWrite (resolve o s).ea (res s m) (readAt o s).st).setP
      (status (res s m) s.cpu.a s.cpu.p))) := by
  have hcpu := (readAt_effects o s).cpu
  rw [exec_rmw i s o res fin h ho, ← hm, hfin, memWrite_a, memWrite_p, rmwOp_result_congr h hcpu, hcpu]

/-- Only the shifts and rotates have an accumulator form. -/
theorem accumulator_shifts {i : Instr} (h : i.row.mode = .accumulator) (c : Bool) (m : Byte) :
    (shiftRule i.row.mnemonic c m).isSome = true := by
  cases i <;> first
    | (cases h; done)
    | rfl

/-- The other read-modify-writes work on memory. -/
theorem exists_memOperand {i : Instr} (hrmw : (rmwOp i.row.mnemonic).isSome = true)
    (hshift : shiftRule i.row.mnemonic false 0 = none) : ∃ o, memOperand i = some o := by
  rcases rmw_operand i hrmw with ho | hacc
  · exact Option.isSome_iff_exists.1 ho
  · have hsome := accumulator_shifts hacc false 0
    rw [hshift] at hsome
    cases hsome

/-- INC and DEC: the new byte is the old one plus `d`. -/
theorem exec_increment {i : Instr} {res : State → Byte → Byte} {d : Byte} (s : State)
    (h : rmwOp i.row.mnemonic = some (res, resultFlags)) (hshift : shiftRule i.row.mnemonic false 0 = none)
    (hres : ∀ t m, res t m = m + d) :
    ∃ o q, memOperand i = some o ∧ NZFrom ((readAt o s).value + d) s.cpu.p q ∧ exec i s =
      .next (concluded i false ((memWrite (resolve o s).ea ((readAt o s).value + d) (readAt o s).st).setP q)) := by
  obtain ⟨o, ho⟩ := exists_memOperand (by rw [h]; rfl) hshift
  refine ⟨o, _, ho, nzFrom_putNZ _ _, ?_⟩
  rw [exec_rmw_status (status := fun new _ p => putNZ new p) s h ho rfl fun _ _ => rfl, hres]

/-- Settles O18: the memory forms by `exec_increment`, the register forms by SetNZ. -/
theorem incrementsComplete : Obligations.IncrementsComplete := by
  intro i s
  refine ⟨?_, ⟨_, nzFrom_putNZ _ _, rfl⟩, ⟨_, nzFrom_putNZ _ _, rfl⟩, ⟨_, nzFrom_putNZ _ _, rfl⟩,
    ⟨_, nzFrom_putNZ _ _, rfl⟩⟩
  rintro d (⟨h, rfl⟩ | ⟨h, rfl⟩)
  · exact exec_increment (res := incByte) s (by rw [h]; rfl) (by rw [h]; rfl) fun _ _ => rfl
  · exact exec_increment (res := decByte) s (by rw [h]; rfl) (by rw [h]; rfl) fun _ m => BitVec.sub_eq_add_neg m 1

theorem shiftLeft_one_toNat (m : Byte) : (m <<< 1).toNat = m.toNat * 2 % 256 := by
  rw [BitVec.toNat_shiftLeft, Nat.shiftLeft_eq]

theorem shiftRight_one_toNat (m : Byte) : (m >>> 1).toNat = m.toNat / 2 := by
  rw [BitVec.toNat_ushiftRight, Nat.shiftRight_eq_div_pow]

/-- The carry comes in at the bit the shift left 0, so it is added. -/
theorem rolByte_toNat (s : State) (m : Byte) : (rolByte s m).toNat = m.toNat * 2 % 256 + (s.flag .c).toNat := by
  have hcarry : ((BitVec.ofBool (s.flag .c)).setWidth 8).toNat = (s.flag .c).toNat := by cases s.flag .c <;> rfl
  have heven : m.toNat * 2 % 256 = 2 ^ 1 * (m.toNat % 128) := by omega
  rw [rolByte, BitVec.toNat_or, shiftLeft_one_toNat, hcarry, heven,
    ← Nat.two_pow_add_eq_or_of_lt (Bool.toNat_lt (s.flag .c))]

theorem rorByte_toNat (s : State) (m : Byte) : (rorByte s m).toNat = m.toNat / 2 + 128 * (s.flag .c).toNat := by
  have hcarry : ((BitVec.ofBool (s.flag .c)).setWidth 8 <<< 7 : Byte).toNat = 2 ^ 7 * (s.flag .c).toNat := by
    cases s.flag .c <;> rfl
  have hlow : m.toNat / 2 < 2 ^ 7 := by have := m.isLt; omega
  rw [rorByte, BitVec.toNat_or, shiftRight_one_toNat, hcarry, Nat.or_comm, ← Nat.two_pow_add_eq_or_of_lt hlow,
    Nat.add_comm]

/-- What a shift or rotate does with its operand `m`, as `shiftRule` has it: the new byte, then the flags. -/
theorem rmwOp_of_shiftRule {n : Mnemonic} {c carry : Bool} {m : Byte} {k : Nat} (h : shiftRule n c m = some (k, carry)) :
    ∃ res fin, rmwOp n = some (res, fin) ∧ (∀ t : State, flagOf .c t.cpu.p = c → (res t m).toNat = k) ∧
      ∀ new t, fin m new t = t.setP (putNZ new (putFlag .c carry t.cpu.p)) := by
  cases n <;> cases h
  case asl => exact ⟨_, _, rfl, fun _ _ => shiftLeft_one_toNat m, fun _ _ => rfl⟩
  case lsr => exact ⟨_, _, rfl, fun _ _ => shiftRight_one_toNat m, fun _ _ => rfl⟩
  case rol => exact ⟨_, _, rfl, fun t ht => ht ▸ rolByte_toNat t m, fun _ _ => rfl⟩
  case ror => exact ⟨_, _, rfl, fun t ht => ht ▸ rorByte_toNat t m, fun _ _ => rfl⟩

/-- SetNZ after C is written. -/
theorem cnzFrom_putNZ (c : Bool) (v p : Byte) : CNZFrom c v p (putNZ v (putFlag .c c p)) := by
  obtain ⟨hn, hz, hkeep⟩ := nzFrom_putNZ v (putFlag .c c p)
  refine ⟨?_, hn, hz, fun f hc hfn hfz => ?_⟩
  · rw [hkeep .c (by decide) (by decide), flagOf_putFlag_same]
  · rw [hkeep f hfn hfz, flagOf_putFlag_other hc]

/-- Settles O21, by `rmwOp_of_shiftRule` for both kinds of form. -/
theorem shiftsComplete : Obligations.ShiftsComplete := by
  intro i s
  refine ⟨fun o m n c ho hm hrule => ?_, fun n c hacc hrule => ?_, fun hsome => rmw_operand i ?_⟩
  · obtain ⟨res, fin, hop, hres, hfin⟩ := rmwOp_of_shiftRule hrule
    exact ⟨res s m, _, hres s rfl, cnzFrom_putNZ c _ _,
      exec_rmw_status (status := fun new _ p => putNZ new (putFlag .c c p)) s hop ho hm hfin⟩
  · obtain ⟨res, fin, hop, hres, hfin⟩ := rmwOp_of_shiftRule hrule
    refine ⟨res s s.cpu.a, _, hres s rfl, cnzFrom_putNZ c _ _, ?_⟩
    rw [exec_acc i s res fin hop hacc, hfin, State.setA_p]
  · obtain ⟨⟨n, c⟩, hrule⟩ := Option.isSome_iff_exists.1 hsome
    obtain ⟨res, fin, hop, -⟩ := rmwOp_of_shiftRule hrule
    rw [hop]
    rfl

/-! ### ADC and SBC (R210 to R214, spec/46_undocumented.md R310) -/

/-- The mask 0x80 keeps the sign bit. -/
theorem and_0x80_ne_zero_iff (b : Byte) : b &&& 0x80 ≠ 0 ↔ b.msb = true := by
  have hmask : b &&& 0x80 = if b.getLsbD 7 then 0x80 else 0 := BitVec.and_twoPow b 7
  rw [hmask, BitVec.msb_eq_getLsbD_last]
  cases b.getLsbD 7 <;> simp

/-- The spec's formula for V: both operands have the other sign than the result. -/
theorem overflow_formula_iff (a m res : Byte) :
    (a ^^^ res) &&& (m ^^^ res) &&& 0x80 ≠ 0 ↔ a.msb ≠ res.msb ∧ m.msb ≠ res.msb := by
  rw [and_0x80_ne_zero_iff, BitVec.msb_and, BitVec.msb_xor, BitVec.msb_xor, Bool.and_eq_true, bne_iff_ne, bne_iff_ne]

theorem sumByte_toNat (a m : Byte) (c : Bool) : (sumByte a m c).toNat = (a.toNat + m.toNat + c.toNat) % 256 := by
  rw [sumByte, exactSum, BitVec.toNat_ofNat]

/-- The formula is two's-complement overflow (R210). -/
theorem overflow_formula_range (a m : Byte) (c : Bool) :
    (a ^^^ sumByte a m c) &&& (m ^^^ sumByte a m c) &&& 0x80 ≠ 0 ↔
      a.toInt + m.toInt + c.toNat < -128 ∨ 127 < a.toInt + m.toInt + c.toNat := by
  have hc := Bool.toNat_lt c
  have ha := a.isLt
  have hm := m.isLt
  rw [overflow_formula_iff, BitVec.msb_eq_decide, BitVec.msb_eq_decide, BitVec.msb_eq_decide, sumByte_toNat,
    BitVec.toInt_eq_toNat_cond, BitVec.toInt_eq_toNat_cond, ne_eq, ne_eq, decide_eq_decide, decide_eq_decide]
  omega

/-- The status after a binary addition that leaves `res` in A. -/
def addStatus (a m p : Byte) : Byte :=
  putNZ (sumByte a m (flagOf .c p)) (putFlag .v (sumOverflow a m (sumByte a m (flagOf .c p)))
    (putFlag .c (sumCarry a m (flagOf .c p)) p))

theorem addBinary_eq (m : Byte) (s : State) :
    addBinary m s = (s.setA (sumByte s.cpu.a m (flagOf .c s.cpu.p))).setP (addStatus s.cpu.a m s.cpu.p) := rfl

theorem binaryAdd_addStatus (a m p : Byte) : BinaryAdd a m p (sumByte a m (flagOf .c p)) (addStatus a m p) := by
  have hc : flagOf .c (addStatus a m p) = sumCarry a m (flagOf .c p) := by
    simp [addStatus, flagOf_putNZ, flagOf_putFlag]
  have hv : flagOf .v (addStatus a m p) = sumOverflow a m (sumByte a m (flagOf .c p)) := by
    simp [addStatus, flagOf_putNZ]
  have hov (res : Byte) : sumOverflow a m res = decide ((a ^^^ res) &&& (m ^^^ res) &&& 0x80 ≠ 0) := by
    rw [sumOverflow, bne, beq_eq_decide, ← decide_not]
  obtain ⟨hn, hz, -⟩ : NZFrom (sumByte a m (flagOf .c p)) _ (addStatus a m p) := nzFrom_putNZ _ _
  refine ⟨sumByte_toNat _ _ _, hc, ?_, ?_, hn, hz, ?_⟩
  · rw [hv, hov]
  · rw [hv, hov, decide_eq_decide]
    exact overflow_formula_range _ _ _
  · exact (((SameFlagsBut.rfl' _ p).putFlag _ (by decide)).putFlag _ (by decide)).putNZ _ (by decide) (by decide)

/-- A binary subtraction adds the complement of the operand (R214). -/
theorem binarySub_of_binaryAdd {a m p res q : Byte} (h : BinaryAdd a (m ^^^ 0xFF) p res q) : BinarySub a m p res q := by
  obtain ⟨hres, hc, hv, hrange, hn, hz, hkeep⟩ := h
  have hnot : m ^^^ 0xFF = ~~~m := BitVec.xor_allOnes
  have hm := m.isLt
  have hcarry := Bool.toNat_lt (flagOf .c p)
  have hint : (~~~m).toInt = -1 - m.toInt := by
    rw [BitVec.toInt_eq_toNat_cond, BitVec.toInt_eq_toNat_cond, BitVec.toNat_not]
    omega
  rw [hnot, BitVec.toNat_not] at hres hc
  refine ⟨by omega, ?_, hv, ?_, hn, hz, hkeep⟩
  · rw [hc, decide_eq_decide]
    omega
  · rw [hrange, hnot, decide_eq_decide, hint]
    omega

/-! #### Decimal arithmetic (R211, R213) -/

theorem bcdValue_eq_decDigits (b : Byte) : bcdValue b = decDigits b := by rw [bcdValue, decDigits, Nat.mul_comm]

theorem validBcd_iff (b : Byte) : validBcd b = true ↔ IsBcd b := by
  simp only [validBcd, IsBcd, Bool.and_eq_true, decide_eq_true_eq]

/-- `Enc(n)` of two digits is valid BCD for `n`. -/
theorem encDigits_spec {n : Nat} (h : n < 100) : IsBcd (encDigits n) ∧ bcdValue (encDigits n) = n := by
  have henc : (encDigits n).toNat = n / 10 * 16 + n % 10 := by
    rw [encDigits, BitVec.toNat_ofNat]
    omega
  rw [IsBcd, bcdValue, henc]
  omega

/-- The flags of a decimal result: C as computed, N and Z from the result, V free. -/
theorem decimalResult_status (carry : Bool) (res : Byte) (s : State) : let q := (decimalResult carry res s).cpu.p
    flagOf .c q = carry ∧ flagOf .n q = res.getLsbD 7 ∧ flagOf .z q = decide (res = 0) ∧
      SameFlagsBut [.c, .v, .n, .z] s.cpu.p q := by
  obtain ⟨hn, hz, hkeep⟩ := nzFrom_putNZ res (putFlag .c carry s.cpu.p)
  have hp : (decimalResult carry res s).cpu.p =
      putFlag .v (Config.freeBit s.freeCount) (putNZ res (putFlag .c carry s.cpu.p)) := rfl
  refine ⟨?_, ?_, ?_, (decimalResult_flags carry res s).mono (by decide)⟩
  · rw [hp, flagOf_putFlag_other (by decide), hkeep .c (by decide) (by decide), flagOf_putFlag_same]
  · rw [hp, flagOf_putFlag_other (by decide), hn]
  · rw [hp, flagOf_putFlag_other (by decide), hz]

theorem addDecimal_spec {m : Byte} {s : State} (ha : IsBcd s.cpu.a) (hm : IsBcd m) :
    DecimalAdd s.cpu.a m s.cpu.p (addDecimal m s).cpu.a (addDecimal m s).cpu.p := by
  rw [addDecimal, if_pos (by rw [(validBcd_iff _).2 ha, (validBcd_iff _).2 hm]; rfl)]
  have hlt : decimalSum s.cpu.a m (s.flag .c) % 100 < 100 := Nat.mod_lt _ (by decide)
  obtain ⟨hbcd, hvalue⟩ := encDigits_spec hlt
  obtain ⟨hc, hn, hz, hkeep⟩ := decimalResult_status (decide (99 < decimalSum s.cpu.a m (s.flag .c)))
    (encDigits (decimalSum s.cpu.a m (s.flag .c) % 100)) s
  refine ⟨hbcd, ?_, ?_, hn, hz, hkeep⟩
  · rw [bcdValue_eq_decDigits s.cpu.a, bcdValue_eq_decDigits m]
    exact hvalue
  · rw [bcdValue_eq_decDigits, bcdValue_eq_decDigits]
    exact hc

theorem subDecimal_spec {m : Byte} {s : State} (ha : IsBcd s.cpu.a) (hm : IsBcd m) :
    DecimalSub s.cpu.a m s.cpu.p (subDecimal m s).cpu.a (subDecimal m s).cpu.p := by
  rw [subDecimal, if_pos (by rw [(validBcd_iff _).2 ha, (validBcd_iff _).2 hm]; rfl)]
  have hlt : (decimalDiff s.cpu.a m (s.flag .c) % 100).toNat < 100 := by omega
  obtain ⟨hbcd, hvalue⟩ := encDigits_spec hlt
  obtain ⟨hc, hn, hz, hkeep⟩ := decimalResult_status (decide (0 ≤ decimalDiff s.cpu.a m (s.flag .c)))
    (encDigits (decimalDiff s.cpu.a m (s.flag .c) % 100).toNat) s
  have hdiff : decimalDiff s.cpu.a m (s.flag .c) =
      (bcdValue s.cpu.a : Int) - bcdValue m - (1 - ((flagOf .c s.cpu.p).toNat : Int)) := by
    rw [bcdValue_eq_decDigits, bcdValue_eq_decDigits]
    rfl
  have hcarry := Bool.toNat_lt (flagOf .c s.cpu.p)
  refine ⟨hbcd, ?_, ?_, hn, hz, hkeep⟩
  · rw [← hdiff]
    refine (congrArg Nat.cast hvalue).trans (Int.toNat_of_nonneg (by omega))
  · refine hc.trans (decide_eq_decide.2 ?_)
    rw [hdiff]
    omega

/-! #### The two operations and the three mnemonics that use them -/

theorem decimalMode_iff (s : State) : decimalMode s = true ↔ Decimal s := by
  rw [decimalMode, Bool.and_eq_true]
  rfl

theorem adc_of_decimal {s : State} (h : Decimal s) (m : Byte) : adc m s = addDecimal m s := by
  rw [adc, if_pos ((decimalMode_iff s).2 h)]

theorem adc_of_not_decimal {s : State} (h : ¬ Decimal s) (m : Byte) : adc m s = addBinary m s := by
  rw [adc, if_neg (mt (decimalMode_iff s).1 h)]

theorem sbc_of_decimal {s : State} (h : Decimal s) (m : Byte) : sbc m s = subDecimal m s := by
  rw [sbc, if_pos ((decimalMode_iff s).2 h)]

theorem sbc_of_not_decimal {s : State} (h : ¬ Decimal s) (m : Byte) : sbc m s = addBinary (m ^^^ 0xFF) s := by
  rw [sbc, if_neg (mt (decimalMode_iff s).1 h)]

theorem decimal_congr {s t : State} (hp : t.cpu.p = s.cpu.p) (hcfg : t.cfg = s.cfg) : Decimal t ↔ Decimal s := by
  rw [Decimal, Decimal, hp, hcfg]

/-- `t` is `s` but for A, `P` and the count of free values. -/
def OnlyAccumulator (s t : State) : Prop := t = ((s.setA t.cpu.a).setP t.cpu.p).setFreeCount t.freeCount

theorem adc_onlyAccumulator (m : Byte) (s : State) : OnlyAccumulator s (adc m s) := by
  unfold adc addDecimal
  split
  · split <;> rfl
  · rfl

theorem sbc_onlyAccumulator (m : Byte) (s : State) : OnlyAccumulator s (sbc m s) := by
  unfold sbc subDecimal
  split
  · split <;> rfl
  · rfl

/-- What an arithmetic operation is outside decimal mode: A and `P` by the relation `R`, no free value. -/
def BinaryBy (R : Byte → Byte → Byte → Byte → Byte → Prop) (op : Byte → State → State) : Prop :=
  ∀ m s, ¬ Decimal s → R s.cpu.a m s.cpu.p (op m s).cpu.a (op m s).cpu.p ∧ (op m s).freeCount = s.freeCount

/-- What an arithmetic operation is in decimal mode: on valid BCD, A and `P` by the relation `R`. -/
def DecimalBy (R : Byte → Byte → Byte → Byte → Byte → Prop) (op : Byte → State → State) : Prop :=
  ∀ m s, Decimal s → IsBcd s.cpu.a → IsBcd m → R s.cpu.a m s.cpu.p (op m s).cpu.a (op m s).cpu.p

theorem adc_binaryBy : BinaryBy BinaryAdd adc := by
  intro m s h
  rw [adc_of_not_decimal h, addBinary_eq]
  exact ⟨binaryAdd_addStatus _ _ _, rfl⟩

theorem sbc_binaryBy : BinaryBy BinarySub sbc := by
  intro m s h
  rw [sbc_of_not_decimal h, addBinary_eq]
  exact ⟨binarySub_of_binaryAdd (binaryAdd_addStatus _ _ _), rfl⟩

theorem adc_decimalBy : DecimalBy DecimalAdd adc := by
  intro m s h ha hm
  rw [adc_of_decimal h]
  exact addDecimal_spec ha hm

theorem sbc_decimalBy : DecimalBy DecimalSub sbc := by
  intro m s h ha hm
  rw [sbc_of_decimal h]
  exact subDecimal_spec ha hm

section Arithmetic
variable {i : Instr} {op : Byte → State → State} {R : Byte → Byte → Byte → Byte → Byte → Prop} {s : State}

/-- The read-class form of an arithmetic operation outside decimal mode. -/
theorem exec_binary (h : readOp i.row.mnemonic = some op) (honly : ∀ m t, OnlyAccumulator t (op m t))
    (hop : BinaryBy R op) (hs : ¬ Decimal s) :
    ∃ r res q, readOperand i s = some r ∧ R s.cpu.a r.value s.cpu.p res q ∧
      exec i s = .next (concluded i r.crossed ((r.st.setA res).setP q)) := by
  obtain ⟨r, hr, hexec⟩ := exec_read i s op h
  have hread := readOperand_effects hr
  have hdec : ¬ Decimal r.st := mt (decimal_congr (congrArg Cpu.p hread.cpu) hread.cfg).1 hs
  obtain ⟨hR, hfree⟩ := hop r.value r.st hdec
  refine ⟨r, (op r.value r.st).cpu.a, (op r.value r.st).cpu.p, hr, hread.cpu ▸ hR, ?_⟩
  rw [hexec, honly r.value r.st, hfree]
  rfl

/-- The read-class form of an arithmetic operation in decimal mode. -/
theorem exec_decimal (h : readOp i.row.mnemonic = some op) (honly : ∀ m t, OnlyAccumulator t (op m t))
    (hflags : ∀ m t, SameFlagsBut [.c, .z, .v, .n] t.cpu.p (op m t).cpu.p) (hop : DecimalBy R op) (hs : Decimal s) :
    ∃ r res q n, readOperand i s = some r ∧ SameFlagsBut [.c, .v, .n, .z] s.cpu.p q ∧
      exec i s = .next (concluded i r.crossed (((r.st.setA res).setP q).setFreeCount n)) ∧
      (IsBcd s.cpu.a → IsBcd r.value → R s.cpu.a r.value s.cpu.p res q) := by
  obtain ⟨r, hr, hexec⟩ := exec_read i s op h
  have hread := readOperand_effects hr
  have hdec : Decimal r.st := (decimal_congr (congrArg Cpu.p hread.cpu) hread.cfg).2 hs
  rw [honly r.value r.st] at hexec
  refine ⟨r, _, _, _, hr, ?_, hexec, ?_⟩
  · rw [← hread.cpu]
    exact (hflags r.value r.st).mono (by decide)
  · rw [← hread.cpu]
    exact hop r.value r.st hdec

end Arithmetic

/-- Settles O15, by `exec_binary` for both operations. -/
theorem binaryAdcSbcComplete : Obligations.BinaryAdcSbcComplete := by
  refine fun i s hs => ⟨fun h => ?_, fun h => ?_⟩
  · exact exec_binary (op := adc) (by rw [h]; rfl) adc_onlyAccumulator adc_binaryBy hs
  · exact exec_binary (op := sbc) (by rw [h]; rfl) sbc_onlyAccumulator sbc_binaryBy hs

/-- Settles O16, by `exec_decimal` for both operations. -/
theorem decimalAdcSbcComplete : Obligations.DecimalAdcSbcComplete := by
  rintro i s hs (h | h)
  · obtain ⟨r, res, q, n, hr, hflags, hexec, hdec⟩ :=
      exec_decimal (op := adc) (by rw [h]; rfl) adc_onlyAccumulator adc_flags adc_decimalBy hs
    exact ⟨r, res, q, n, hr, hflags, hexec, fun ha hm _ => hdec ha hm,
      fun _ _ hsbc => absurd (h.symm.trans hsbc) (by decide)⟩
  · obtain ⟨r, res, q, n, hr, hflags, hexec, hdec⟩ :=
      exec_decimal (op := sbc) (by rw [h]; rfl) sbc_onlyAccumulator sbc_flags sbc_decimalBy hs
    exact ⟨r, res, q, n, hr, hflags, hexec, fun _ _ hadc => absurd (h.symm.trans hadc) (by decide),
      fun ha hm _ => hdec ha hm⟩

/-! ### DCM and ISB (spec/46_undocumented.md R308, R309) -/

/-- DCM: the new byte is the old one minus 1, and A is compared with it. -/
theorem exec_dcm {i : Instr} (s : State) (h : i.row.mnemonic = .dcm) :
    ∃ o b q, memOperand i = some o ∧ b = (readAt o s).value - 1 ∧
      CNZFrom (decide (b.toNat ≤ s.cpu.a.toNat)) (s.cpu.a - b) s.cpu.p q ∧
      exec i s = .next (concluded i false ((memWrite (resolve o s).ea b (readAt o s).st).setP q)) := by
  obtain ⟨o, ho⟩ := exists_memOperand (i := i) (by rw [h]; rfl) (by rw [h]; rfl)
  exact ⟨o, decByte s (readAt o s).value, _, ho, rfl, cnzFrom_compareStatus _ _ _,
    exec_rmw_status (fin := compareResult) (status := fun new a p => compareStatus a new p) s (by rw [h]; rfl) ho rfl
      fun _ _ => rfl⟩

/-- ISB: the new byte is the old one plus 1, and SBC of it follows the write, in a state with the A, the `P` and the
configuration before. -/
theorem exec_isb {i : Instr} (s : State) (h : i.row.mnemonic = .isb) :
    ∃ o b t, memOperand i = some o ∧ b = (readAt o s).value + 1 ∧ t = memWrite (resolve o s).ea b (readAt o s).st ∧
      t.cpu.a = s.cpu.a ∧ t.cpu.p = s.cpu.p ∧ t.cfg = s.cfg ∧ t.freeCount = s.freeCount ∧
      exec i s = .next (concluded i false (sbc b t)) := by
  obtain ⟨o, ho⟩ := exists_memOperand (i := i) (by rw [h]; rfl) (by rw [h]; rfl)
  have hread := readAt_effects o s
  obtain ⟨-, -, -, -, hfree⟩ := hread.bus
  refine ⟨o, (readAt o s).value + 1, _, ho, rfl, rfl, ?_, ?_, ?_, ?_,
    exec_rmw i s o incByte subtractResult (by rw [h]; rfl) ho⟩
  · rw [memWrite_a, hread.cpu]
  · rw [memWrite_p, hread.cpu]
  · rw [memWrite_cfg, hread.cfg]
  · rw [memWrite_freeCount, hfree]

/-- Settles O27: DCM by the compare, ISB by SBC in both modes. -/
theorem dcmAndIsbComplete : Obligations.DcmAndIsbComplete := by
  refine fun i s => ⟨exec_dcm s, fun h => ?_⟩
  obtain ⟨o, b, t, ho, hb, ht, ha, hp, hcfg, hfree, hexec⟩ := exec_isb s h
  refine ⟨o, b, (sbc b t).cpu.a, (sbc b t).cpu.p, (sbc b t).freeCount, ho, hb, ?_, fun hs => ?_, fun hs => ?_⟩
  · rw [hexec, ← ht]
    exact congrArg (fun u => Host.Outcome.next (concluded i false u)) (sbc_onlyAccumulator b t)
  · obtain ⟨hsub, hn⟩ := sbc_binaryBy b t (mt (decimal_congr hp hcfg).1 hs)
    rw [ha, hp] at hsub
    exact ⟨hsub, hn.trans hfree⟩
  · have hsub := sbc_decimalBy b t ((decimal_congr hp hcfg).2 hs)
    rw [ha, hp] at hsub
    refine ⟨?_, hsub⟩
    rw [← hp]
    exact (sbc_flags b t).mono (by decide)

/-! ### Branches, jumps and subroutines (spec/45_control_flags_system.md R260 to R281) -/

/-- The target of a branch as a number (R149). -/
theorem branchTarget_toNat (off : Int) (s : State) :
    ((branchTarget off s).toNat : Int) = ((branchNext s).toNat + off) % 65536 := by
  rw [branchTarget, BitVec.toNat_add, BitVec.toNat_ofInt]
  omega

/-- The cycle a taken branch pays for another page. -/
theorem pageDiffers_toNat (a b : Addr) : (pageDiffers a b).toNat = if a.toNat / 256 = b.toNat / 256 then 0 else 1 := by
  rw [pageDiffers_iff]
  by_cases h : a.toNat / 256 = b.toNat / 256 <;> simp [h]

/-- Settles O22, by `exec_branch`: the two outcomes are those of `Branch(cond)`. -/
theorem branchesComplete : Obligations.BranchesComplete := by
  intro i s f v off h
  refine ⟨branchNext s, branchTarget off s, BitVec.toNat_add _ _, branchTarget_toNat off s, fun hv => ?_, fun hv => ?_⟩
  · rw [exec_branch s h, decide_eq_true hv, branchClass, if_pos rfl, pageDiffers_toNat]
  · rw [exec_branch s h, decide_eq_false hv, branchClass, if_neg Bool.false_ne_true]

theorem byte_add_one_toNat (b : Byte) : (b + 1).toNat = (b.toNat + 1) % 256 := BitVec.toNat_add b 1

/-- The address of a pointer's high byte as a number, under both settings (R153, D13). -/
theorem pointerHigh_toNat (pageWrap : Bool) (a : Addr) : (pointerHigh pageWrap a).toNat =
    if pageWrap then a.toNat / 256 * 256 + (a.toNat + 1) % 256 else (a.toNat + 1) % 65536 := by
  cases pageWrap with
  | false => exact BitVec.toNat_add _ _
  | true =>
    rw [pointerHigh, if_pos rfl, if_pos rfl, word_toNat, hiByte_toNat, byte_add_one_toNat, loByte_toNat, Nat.mod_add_mod]

/-- Settles O23. -/
theorem jumpsComplete : Obligations.JumpsComplete := fun s a =>
  ⟨rfl, pointerHigh s.cfg.jmpIndirectPageWrap a, pointerHigh_toNat _ a, rfl⟩

/-- Settles O24, by the equations of the 16-bit push and pull. -/
theorem subroutineCallsComplete : Obligations.SubroutineCallsComplete := by
  intro s a
  constructor
  · show Host.Outcome.next (charge 6 ((push16 (s.cpu.pc + 1) s).setPc a)) = _
    rw [push16_eq]
    rfl
  · show Host.Outcome.next (charge 6 ((pop16 s).2.setPc ((pop16 s).1 + 1))) = _
    rw [pop16_peek]
    rfl

/-! ### BRK, RTI and the interrupt entry (R282, R283; spec/60_exceptions.md R414 to R418) -/

/-- Setting one flag leaves the others. -/
theorem sameFlagsBut_putFlag (f : Flag) (b : Bool) (p : Byte) : SameFlagsBut [f] p (putFlag f b p) :=
  (SameFlagsBut.rfl' _ p).putFlag b (List.mem_singleton.2 rfl)

/-- Settles O25, by the equations of the entry through a vector and of the return. -/
theorem brkAndRtiComplete : Obligations.BrkAndRtiComplete := by
  intro s
  refine ⟨⟨putFlag .i true s.cpu.p, flagOf_putFlag_same _ _ _, sameFlagsBut_putFlag _ _ _, ?_⟩, ?_⟩
  · show Host.Outcome.next (charge 7 (enterHandler (s.cpu.pc + 1) (imageWithB s.cpu.p) irqVector s)) = _
    rw [enterHandler_eq _ _ (by decide) (by decide)]
    rfl
  · obtain ⟨hu, hb⟩ := pulledStatus_inv (peek (stackAddr (s.cpu.s + 1)) s)
    refine ⟨_, hb, hu, pulledStatus_flags _, ?_⟩
    show Host.Outcome.next (charge 6 (returnFromInterrupt s)) = _
    rw [returnFromInterrupt_eq]
    rfl

theorem interruptEntry_eq (k : Interrupt) (s : State) : interruptEntry k s =
    (charge (entryCycles k) ((((memWrite (stackAddr (s.cpu.s - 2)) (imageNoB s.cpu.p)
      (memWrite (stackAddr (s.cpu.s - 1)) (loByte s.cpu.pc) (memWrite (stackAddr s.cpu.s) (hiByte s.cpu.pc) s))).setS
      (s.cpu.s - 3)).setP (putFlag .i true s.cpu.p)).setPc
      (word (peek (vectorOf k + 1) s) (peek (vectorOf k) s)))).setPending none := by
  have hlo : 0xFFFA ≤ (vectorOf k).toNat := by cases k <;> decide
  have hhi : (vectorOf k).toNat < 0xFFFF := by cases k <;> decide
  rw [interruptEntry, enterHandler_eq _ _ hlo hhi]

/-- Settles O42: the step's CPU tick is the entry, whose image is the one of D15. -/
theorem interruptEntrySavesAndVectors : Obligations.InterruptEntrySavesAndVectors := by
  intro s k u vec hturn hfault hcycles hpending
  obtain ⟨hu, hb⟩ := pulledStatus_inv u.cpu.p
  refine ⟨imageNoB u.cpu.p, putFlag .i true u.cpu.p, hb, hu, pulledStatus_flags _, flagOf_putFlag_same _ _ _,
    sameFlagsBut_putFlag _ _ _, ?_⟩
  rw [step_cpuTurn hturn, cpuTick_entry hfault hcycles hpending, interruptEntry_eq]
  cases k <;> rfl

/-! ### Flag instructions and NOPs (R285 to R292, R300 to R305) -/

theorem exec_flagWrite {i : Instr} {f : Flag} {v : Bool} (s : State) (h : flagWriteOf i = some (f, v)) :
    exec i s = .next (concluded i false (s.setP (putFlag f v s.cpu.p))) := by
  cases i <;> first
    | (cases h; done)
    | (cases h; rfl)

/-- Whether the index of an instruction's memory operand crosses a page; `false` without such an operand. -/
def operandCrosses (i : Instr) (s : State) : Bool := ((memOperand i).map fun o => (resolve o s).crossed).getD false

theorem exec_nop {i : Instr} (s : State) (h : i.row.mnemonic = .nop) :
    exec i s = .next (concluded i (operandCrosses i s) s) := by
  cases i <;> first
    | (cases h; done)
    | rfl

/-- Settles O26. -/
theorem flagInstructionsAndNopsComplete : Obligations.FlagInstructionsAndNopsComplete := by
  refine fun i s => ⟨fun f v h => ?_, fun h => ⟨operandCrosses i s, fun o ho => ?_, exec_nop s h⟩⟩
  · exact ⟨putFlag f v s.cpu.p, flagOf_putFlag_same _ _ _, sameFlagsBut_putFlag _ _ _, exec_flagWrite s h⟩
  · rw [operandCrosses, ho]
    rfl

/-! ### Effective addresses (spec/40_fetch_decode_addressing.md R146 to R155) -/

theorem indexed_ea_toNat (base : Addr) (index : Byte) (s : State) :
    (indexed base index s).ea.toNat = (base.toNat + index.toNat) % 65536 := by
  rw [indexed, BitVec.toNat_add, zext16_toNat]

theorem indexed_crossed (base : Addr) (index : Byte) (s : State) :
    (indexed base index s).crossed = decide (base.toNat / 256 ≠ (indexed base index s).ea.toNat / 256) :=
  pageDiffers_iff _ _

/-- A page-0 address from a byte, as a number reduced to 8 bits. -/
theorem zext16_eq_ofNat {b : Byte} {n : Nat} (h : b.toNat = n % 256) : zext16 b = BitVec.ofNat 16 (n % 256) := by
  apply BitVec.eq_of_toNat_eq
  rw [zext16_toNat, BitVec.toNat_ofNat, h]
  omega

/-- The pointer at the page-0 address `n`, reduced to 8 bits: both its bytes stand in page 0 (00_scope.md R13). -/
theorem zpRead16_toNat {p : Byte} {n : Nat} (h : p.toNat = n % 256) (s : State) : (zpRead16 p s).1.toNat =
    (peek (BitVec.ofNat 16 (n % 256)) s).toNat + 256 * (peek (BitVec.ofNat 16 ((n + 1) % 256)) s).toNat := by
  have hnext : (p + 1).toNat = (n + 1) % 256 := by rw [byte_add_one_toNat, h, Nat.mod_add_mod]
  simp only [zpRead16, memRead_zeroPage_state, word_toNat, ← zext16_eq_ofNat h, ← zext16_eq_ofNat hnext]
  rw [Nat.add_comm, Nat.mul_comm]
  rfl

/-- Settles O28, by the numbers of `indexed` and of a pointer in page 0. -/
theorem effectiveAddresses : Obligations.EffectiveAddresses := by
  intro s b a lo ptr
  have hX : (resolve (.indX b) s).ea.toNat = ptr (b.toNat + s.cpu.x.toNat) := zpRead16_toNat (BitVec.toNat_add _ _) s
  have hY : (zpRead16 b s).1.toNat = ptr b.toNat := zpRead16_toNat (Nat.mod_eq_of_lt b.isLt).symm s
  refine ⟨fun o => resolve_st o s, zext16_toNat b, rfl, ?_, rfl, ?_, rfl, rfl, rfl, indexed_ea_toNat _ _ _,
    indexed_crossed _ _ _, indexed_ea_toNat _ _ _, indexed_crossed _ _ _, hX, rfl, ?_, ?_⟩
  · exact (zext16_toNat _).trans (BitVec.toNat_add _ _)
  · exact (zext16_toNat _).trans (BitVec.toNat_add _ _)
  · rw [← hY]
    exact indexed_ea_toNat _ _ _
  · rw [← hY]
    exact indexed_crossed _ _ _

/-! ### The fetch and the step (R140, R141) -/

theorem fetch_one {s : State} (h : lengthOf (memRead s.cpu.pc s).1 = 1) :
    fetch s = ⟨(memRead s.cpu.pc s).1, 0, 0, (memRead s.cpu.pc s).2⟩ := by
  simp only [fetch, h]

theorem fetch_two {s : State} (h : lengthOf (memRead s.cpu.pc s).1 = 2) :
    fetch s = ⟨(memRead s.cpu.pc s).1, (memRead (s.cpu.pc + 1) (memRead s.cpu.pc s).2).1, 0,
      (memRead (s.cpu.pc + 1) (memRead s.cpu.pc s).2).2⟩ := by
  simp only [fetch, h]

theorem fetch_three {s : State} (h : lengthOf (memRead s.cpu.pc s).1 = 3) : fetch s =
    let r1 := memRead (s.cpu.pc + 1) (memRead s.cpu.pc s).2
    ⟨(memRead s.cpu.pc s).1, r1.1, (memRead (s.cpu.pc + 2) r1.2).1, (memRead (s.cpu.pc + 2) r1.2).2⟩ := by
  simp only [fetch, h]

/-- The bytes of an encoding in the words of the table, with the opcode's length. -/
theorem encodedBy_of_encode {i : Instr} {op : Byte} {operand : List Byte} (hwf : i.wf = true)
    (h : encode i = op :: operand) :
    EncodedBy i op (operand.getD 0 0) (operand.getD 1 0) ∧ lengthOf op = operand.length + 1 := by
  obtain ⟨hop, hoperand⟩ := List.cons.inj h
  have htwo := operandBytes_length_le_two i
  have hencoded : EncodedBy i op (operand.getD 0 0) (operand.getD 1 0) :=
    ⟨hwf, hop, by rw [hoperand] at htwo ⊢; exact (take_getD_of_length_le_two htwo).symm⟩
  exact ⟨hencoded, hoperand ▸ lengthOf_of_instrOf (instrOf_of_encodedBy hencoded)⟩

/-- A step whose fetch gives the bytes of `i` runs `i`, with `PC` past the opcode. -/
theorem step_of_fetch {s t : State} {i : Instr} {op b1 b2 : Byte} (hrun : RunsInstruction s)
    (hfetch : fetch (cpuSees s) = ⟨op, b1, b2, t⟩) (h : EncodedBy i op b1 b2) :
    step s = finishStep s (exec i (t.setPc ((cpuSees s).cpu.pc + 1))) := by
  obtain ⟨hturn, hfault, hcycles, hpending⟩ := hrun
  rw [step_cpuTurn hturn, cpuTick_runs hfault hcycles hpending, runInstruction, hfetch]
  simp only [instrOf_of_encodedBy h]

/-- Settles O5: the length of the encoding is the one the opcode asks for, so the fetch reads just its bytes. -/
theorem stepRunsDecodedInstruction : Obligations.StepRunsDecodedInstruction := by
  intro s i u r0 r1 r2 hrun hwf
  refine ⟨fun h => ?_, fun h => ?_, fun h => ?_⟩ <;> obtain ⟨hencoded, hlength⟩ := encodedBy_of_encode hwf h
  · exact step_of_fetch hrun (fetch_one hlength) hencoded
  · exact step_of_fetch hrun (fetch_two hlength) hencoded
  · exact step_of_fetch hrun (fetch_three hlength) hencoded

end Sys2Proof.Machine

/-! SUPPORT. The statements of the family 42_stack: what a pushing instruction leaves of the memory (O34), the round trips
of the stack (O40), and JSR with its RTS (O41). Pushes are counted by `Pushed`, one step per byte; a pull after a push is
one equation for a byte and one for a 16-bit value. -/

namespace Sys2Proof.Machine

/-! ### What pushes leave of the memory (spec/42_stack.md R200, R202) -/

/-- `t` comes from `s` by `n` pushes and updates of the CPU between them: S is `n` lower, the PPU is kept, and so is every
byte but those of the `n` cells from `$0100 + S` down. -/
structure Pushed (s : State) (n : Nat) (t : State) : Prop where
  cfg : t.cfg = s.cfg
  sp : t.cpu.s = s.cpu.s - BitVec.ofNat 8 n
  ppu : t.ppu = s.ppu
  chrRam : t.chrRam = s.chrRam
  bytes : ∀ a : Addr, plainCell s.cfg a = true →
    (∀ k, k < n → route s.cfg a ≠ route s.cfg (stackAddr (s.cpu.s - BitVec.ofNat 8 k))) → peek a t = peek a s

theorem Pushed.zero (s : State) : Pushed s 0 s := ⟨rfl, (BitVec.sub_zero _).symm, rfl, rfl, fun _ _ _ => rfl⟩

/-- One more push writes the cell the S of `t` names, the next one down. -/
theorem Pushed.push {s t : State} {n : Nat} (b : Byte) (h : Pushed s n t) : Pushed s (n + 1) (push b t) := by
  obtain ⟨hcfg, hsp, hppu, hchrRam, hbytes⟩ := h
  rw [push_memWrite]
  obtain ⟨hppu', hchrRam'⟩ := memWrite_plain_ppu b (plainCell_stack t.cfg t.cpu.s)
  refine ⟨(memWrite_cfg _ _ _).trans hcfg, ?_, hppu'.trans hppu, hchrRam'.trans hchrRam, fun a ha hne => ?_⟩
  · rw [State.setS_s, hsp, BitVec.ofNat_add, BitVec.sub_sub]
    rfl
  · have hcell : route t.cfg a ≠ route t.cfg (stackAddr t.cpu.s) := by
      rw [hcfg, hsp]
      exact hne n (Nat.lt_succ_self n)
    rw [peek_setS, peek_memWrite_other b (hcfg ▸ ha) hcell]
    exact hbytes a ha fun k hk => hne k (Nat.lt_succ_of_lt hk)

theorem Pushed.push16 {s t : State} {n : Nat} (w : Addr) (h : Pushed s n t) : Pushed s (n + 2) (push16 w t) :=
  (h.push (hiByte w)).push (loByte w)

/-- The vectors are read from plain cells, so the jump changes `PC` alone. -/
theorem jumpThrough_vector {v : Addr} (h : 0xFFFA ≤ v.toNat) (h' : v.toNat < 0xFFFF) (s : State) :
    jumpThrough v s = s.setPc (word (peek (v + 1) s) (peek v s)) := by
  have hnext : 0xFFFA ≤ (v + 1).toNat := by bv_omega
  unfold jumpThrough memRead16
  simp only [memRead_vector_state s h, memRead_vector_state s hnext]
  rfl

/-- An instruction that pushes makes its pushes, then works on the CPU. -/
theorem exec_pushed {i : Instr} {s t : State} (h : 0 < pushCount i.row.mnemonic) (ht : exec i s = .next t) :
    ∃ r, Pushed s (pushCount i.row.mnemonic) r ∧ OnlyCpu r t := by
  cases i
  case pha | php =>
    cases ht
    exact ⟨_, (Pushed.zero s).push _, rfl⟩
  case jsr addr =>
    cases ht
    exact ⟨_, (Pushed.zero s).push16 (s.cpu.pc + 1), rfl⟩
  case brk =>
    cases ht
    refine ⟨_, ((Pushed.zero s).push16 (s.cpu.pc + 1)).push (imageWithB s.cpu.p), ?_⟩
    rw [enterHandler, jumpThrough_vector (v := irqVector) (by decide) (by decide)]
    rfl
  all_goals cases h

/-- Settles O34: the pushes change only their cells, and the rest of the instruction only the CPU. -/
theorem memoryKeptBesideThePushedBytes : Obligations.MemoryKeptBesideThePushedBytes := by
  intro i s t hpush ht
  obtain ⟨r, hr, hcpu⟩ := exec_pushed hpush ht
  refine ⟨?_, ?_, fun a ha hne => ?_⟩
  · rw [hcpu]
    exact hr.ppu
  · rw [hcpu]
    exact hr.chrRam
  · rw [hcpu.peek (hr.cfg ▸ ha)]
    exact hr.bytes a ha hne

/-! ### A pull after a push (R201, R202, R207) -/

theorem State.Inv.memoriesFit {s : State} (hs : s.Inv) : MemoriesFit s := ((state_inv_iff s).1 hs).2.memoriesFit

@[simp] theorem push_s (b : Byte) (s : State) : (push b s).cpu.s = s.cpu.s - 1 := by rw [push_memWrite, State.setS_s]

theorem route_stack_ne {c : Config} {p q : Byte} (h : p ≠ q) : route c (stackAddr p) ≠ route c (stackAddr q) := by
  have hcell : 0x100 + p.toNat ≠ 0x100 + q.toNat := fun heq => h (BitVec.eq_of_toNat_eq (Nat.add_left_cancel heq))
  rw [route_stack, route_stack]
  cases c.bus
  case system => exact fun heq => hcell (Region.ram.inj heq)
  case flat => exact fun heq => hcell (Region.flat.inj heq)

/-- The stack page is memory on both buses, so the pushed byte stands in its cell. -/
theorem peek_push_same (b : Byte) {s : State} (hs : MemoriesFit s) : peek (stackAddr s.cpu.s) (push b s) = b := by
  rw [push_memWrite, peek_setS]
  refine peek_memWrite_same b hs ⟨0x100 + s.cpu.s.toNat, ?_⟩
  rw [route_stack]
  cases s.cfg.bus
  case system => exact .inl rfl
  case flat => exact .inr (.inr rfl)

theorem peek_push_other (b : Byte) {s : State} {p : Byte} (h : p ≠ s.cpu.s) :
    peek (stackAddr p) (push b s) = peek (stackAddr p) s := by
  rw [push_memWrite, peek_setS, peek_memWrite_other b (plainCell_stack _ _) (route_stack_ne h)]

@[simp] theorem push16_s (w : Addr) (s : State) : (push16 w s).cpu.s = s.cpu.s - 2 := by rw [push16_eq, State.setS_s]

/-- A pull after a push gives the byte and S back, across the wrap too; the byte stays in its cell. -/
theorem pop_push (b : Byte) {s : State} (hs : MemoriesFit s) : pop (push b s) = (b, (push b s).setS s.cpu.s) := by
  rw [pop_peek, push_s, BitVec.sub_add_cancel, peek_push_same b hs]

/-- The low byte is pushed last, so it does not reach the cell of the high one. -/
theorem pop16_push16 (w : Addr) {s : State} (hs : MemoriesFit s) :
    pop16 (push16 w s) = (w, (push16 w s).setS s.cpu.s) := by
  have hlo : s.cpu.s - 2 + 1 = (push (hiByte w) s).cpu.s := by rw [push_s]; bv_omega
  have hhi : s.cpu.s - 2 + 2 = s.cpu.s := BitVec.sub_add_cancel _ _
  have hne : s.cpu.s ≠ (push (hiByte w) s).cpu.s := by rw [push_s]; bv_omega
  rw [pop16_peek, push16_s, hlo, hhi, push16, peek_push_same _ (push_fits _ hs), peek_push_other _ hne, peek_push_same _ hs,
    word_hiByte_loByte]

/-- The end of an instruction touches no byte. -/
theorem peek_charge_setPc (a c : Addr) (n : Nat) (s : State) : peek a (charge n (s.setPc c)) = peek a s := by
  rw [charge, peek_setCycles, peek_setPc]

/-- A pull depends on the memory and S alone, so what retires the push does not matter to it. -/
theorem pop_retire (length n : Nat) (s : State) : pop (retire length n s) = ((pop s).1, retire length n (pop s).2) := by
  rw [pop_peek, pop_peek]
  exact congrArg (·, _) (peek_charge_setPc _ _ _ s)

/-- PHA then PLA (R207): A is loaded with itself. -/
theorem pla_after_pha {s t u : State} (hs : MemoriesFit s) (ht : exec .pha s = .next t) (hu : exec .pla t = .next u) :
    u.cpu.a = s.cpu.a ∧ u.cpu.s = s.cpu.s ∧ NZFrom s.cpu.a s.cpu.p u.cpu.p := by
  cases ht
  cases hu
  rw [pullA, pushA, pop_retire, pop_push _ hs, ← push_p s.cpu.a s]
  exact ⟨rfl, rfl, nzFrom_putNZ _ _⟩

/-- PHP then PLP (R207): the status with B set goes out and comes back with B clear and U set. -/
theorem plp_after_php {s t u : State} (hs : MemoriesFit s) (ht : exec .php s = .next t) (hu : exec .plp t = .next u) :
    u.cpu.s = s.cpu.s ∧ u.cpu.p = pulledStatus (imageWithB s.cpu.p) := by
  cases ht
  cases hu
  rw [pullP, pushP, pop_retire, pop_push _ hs]
  exact ⟨rfl, rfl⟩

theorem pulledStatus_imageWithB_flags (p : Byte) : SameFlagsBut [.b, .u] p (pulledStatus (imageWithB p)) := by
  intro f hf
  have hb : f ≠ .b := fun h => hf (h ▸ List.mem_cons_self)
  rw [pulledStatus_flags _ f hf, flagOf_imageWithB, if_neg hb]

/-- Settles O40, by the equations of a pull after a push. -/
theorem pushThenPopRestores : Obligations.PushThenPopRestores := by
  intro s hinv
  have hs := hinv.memoriesFit
  refine ⟨fun t u => pla_after_pha hs, fun t u ht hu => ?_, fun b => ?_⟩
  · obtain ⟨hsp, hp⟩ := plp_after_php hs ht hu
    obtain ⟨hset, hclear⟩ := pulledStatus_inv (imageWithB s.cpu.p)
    rw [hp]
    exact ⟨hsp, hclear, hset, pulledStatus_imageWithB_flags s.cpu.p⟩
  · rw [pop_push b hs]
    refine ⟨rfl, rfl, fun w => ?_⟩
    rw [pop16_push16 w hs]
    exact ⟨rfl, rfl⟩

/-! ### JSR and its RTS (spec/45_control_flags_system.md R280, R281) -/

/-- The 16-bit value a pull gives depends on S and on the two bytes it reads alone. -/
theorem pop16_value_congr {s t : State} (hsp : t.cpu.s = s.cpu.s)
    (hlo : peek (stackAddr (s.cpu.s + 1)) t = peek (stackAddr (s.cpu.s + 1)) s)
    (hhi : peek (stackAddr (s.cpu.s + 2)) t = peek (stackAddr (s.cpu.s + 2)) s) : (pop16 t).1 = (pop16 s).1 := by
  rw [pop16_peek, pop16_peek, hsp, hlo, hhi]

theorem pop16_value_charge_setPc (a : Addr) (n : Nat) (s : State) : (pop16 (charge n (s.setPc a))).1 = (pop16 s).1 :=
  pop16_value_congr rfl (peek_charge_setPc _ _ _ s) (peek_charge_setPc _ _ _ s)

/-- JSR leaves the address of its last byte on the stack (R280); the jump and the charge do not touch it. -/
theorem pop16_after_jsr {s t : State} {a : Addr} (hs : MemoriesFit s) (ht : exec (.jsr a) s = .next t) :
    (pop16 t).1 = s.cpu.pc + 1 := by
  cases ht
  rw [pop16_value_charge_setPc, pop16_push16 _ hs]

/-- Settles O41: RTS pulls what JSR pushed, the address of the last byte of the JSR. -/
theorem jsrThenRtsReturns : Obligations.JsrThenRtsReturns := by
  intro s t u a hinv ht hsp hlo hhi
  have hpulled : (pop16 u).1 = s.cpu.pc + 1 := (pop16_value_congr hsp hlo hhi).trans (pop16_after_jsr hinv.memoriesFit ht)
  have hback : u.cpu.s + 2 = s.cpu.s := by
    cases ht
    rw [hsp, charge, State.setCycles_s, State.setPc_s, push16_s]
    exact BitVec.sub_add_cancel _ _
  refine ⟨charge 6 ((pop16 u).2.setPc ((pop16 u).1 + 1)), rfl, ?_, ?_⟩
  · rw [charge, State.setCycles_pc, State.setPc_pc, hpulled]
    bv_omega
  · rw [charge, State.setCycles_s, State.setPc_s, pop16_peek, State.setS_s, hback]

end Sys2Proof.Machine

/-! SUPPORT. The statement of the family 45_control_flags_system: RTI after an interrupt entry and after BRK (O44). Both
entries leave one stack frame, `InterruptFrame`; a handler that keeps S and the three bytes keeps it, and RTI unwinds it. -/

namespace Sys2Proof.Machine

/-! ### The status image and its pull (spec/45_control_flags_system.md R282, R283; spec/60_exceptions.md R415; D14, D15) -/

/-- U and B are what the register always holds, so the other flags determine it. -/
theorem eq_of_sameFlagsBut_b_u {p q : Byte} (hp : flagOf .u p = true ∧ flagOf .b p = false)
    (hq : flagOf .u q = true ∧ flagOf .b q = false) (h : SameFlagsBut [.b, .u] p q) : q = p := by
  refine status_ext fun f => ?_
  cases f
  case u => exact hq.1.trans hp.1.symm
  case b => exact hq.2.trans hp.2.symm
  all_goals exact h _ (by decide)

theorem pulledStatus_of_inv {p : Byte} (hp : flagOf .u p = true ∧ flagOf .b p = false) : pulledStatus p = p :=
  eq_of_sameFlagsBut_b_u hp (pulledStatus_inv p) (pulledStatus_flags p)

/-- The image of an interrupt entry is the register itself. -/
theorem pulledStatus_imageNoB {p : Byte} (hp : flagOf .u p = true ∧ flagOf .b p = false) :
    pulledStatus (imageNoB p) = p := by
  have himage : imageNoB p = p := pulledStatus_of_inv hp
  rw [himage, pulledStatus_of_inv hp]

/-- The image of BRK differs from the register in B alone, which the pull clears. -/
theorem pulledStatus_imageWithB {p : Byte} (hp : flagOf .u p = true ∧ flagOf .b p = false) :
    pulledStatus (imageWithB p) = p :=
  eq_of_sameFlagsBut_b_u hp (pulledStatus_inv _) (pulledStatus_imageWithB_flags p)

/-! ### The stack frame of an entry -/

/-- From the cell above S upwards stand the status image and the return address, low byte first, and above the three S
was `sp`. -/
structure InterruptFrame (ret : Addr) (image sp : Byte) (t : State) : Prop where
  image : peek (stackAddr (t.cpu.s + 1)) t = image
  ret : word (peek (stackAddr (t.cpu.s + 3)) t) (peek (stackAddr (t.cpu.s + 2)) t) = ret
  sp : t.cpu.s + 3 = sp

/-- The frame is S and the three bytes, nothing else of the state. -/
theorem InterruptFrame.congr {ret : Addr} {image sp : Byte} {t u : State} (h : InterruptFrame ret image sp t)
    (hsp : u.cpu.s = t.cpu.s)
    (hbytes : ∀ k : Byte, k = 1 ∨ k = 2 ∨ k = 3 → peek (stackAddr (t.cpu.s + k)) u = peek (stackAddr (t.cpu.s + k)) t) :
    InterruptFrame ret image sp u := by
  obtain ⟨himage, hret, hs⟩ := h
  refine ⟨?_, ?_, ?_⟩ <;> rw [hsp]
  · rw [hbytes 1 (.inl rfl), himage]
  · rw [hbytes 3 (.inr (.inr rfl)), hbytes 2 (.inr (.inl rfl)), hret]
  · exact hs

/-- An update of the CPU that keeps S keeps the frame. -/
theorem InterruptFrame.setCpu {ret : Addr} {image sp : Byte} {t : State} (h : InterruptFrame ret image sp t) {c : Cpu}
    (hsp : c.s = t.cpu.s) : InterruptFrame ret image sp (t.setCpu c) :=
  h.congr hsp fun _ _ => peek_setCpu _ c t

/-- The three pushes of an entry are the frame: the image is pushed below the address and does not reach its cells. -/
theorem interruptFrame_push_push16 (ret : Addr) (image : Byte) {s : State} (hs : MemoriesFit s) :
    InterruptFrame ret image s.cpu.s (push image (push16 ret s)) := by
  have hfit : MemoriesFit (push16 ret s) := push_fits _ (push_fits _ hs)
  have hbelow (b : Byte) : b - 1 + 1 = b ∧ b - 1 + 2 = b + 1 ∧ b - 1 + 3 = b + 2 := by bv_omega
  have habove (b : Byte) : b + 1 ≠ b ∧ b + 2 ≠ b := by bv_omega
  obtain ⟨h1, h2, h3⟩ := hbelow (push16 ret s).cpu.s
  obtain ⟨hlo, hhi⟩ := habove (push16 ret s).cpu.s
  refine ⟨?_, ?_, ?_⟩
  · rw [push_s, h1, peek_push_same image hfit]
  · have hpull := congrArg Prod.fst (pop16_push16 ret hs)
    rw [pop16_peek] at hpull
    rw [push_s, h2, h3, peek_push_other image hhi, peek_push_other image hlo]
    exact hpull
  · rw [push_s, h3, push16_s]
    exact BitVec.sub_add_cancel _ _

/-- After the pushes an entry works on the CPU alone. -/
theorem interruptFrame_enterHandler (ret : Addr) (image : Byte) {v : Addr} {s : State} (hs : MemoriesFit s)
    (h : 0xFFFA ≤ v.toNat) (h' : v.toNat < 0xFFFF) : InterruptFrame ret image s.cpu.s (enterHandler ret image v s) := by
  rw [enterHandler, jumpThrough_vector h h']
  exact (interruptFrame_push_push16 ret image hs).setCpu rfl

theorem cpuStep_entry {s : State} {k : Interrupt} (hfault : s.cpu.fault = none) (hpending : s.cpu.pending = some k) :
    cpuStep s = .next (interruptEntry k s) := by
  rw [cpuStep, hfault, if_neg (by simp), hpending]

/-- An interrupt entry leaves `PC` and the status image with B clear (R415). -/
theorem interruptFrame_interruptEntry (k : Interrupt) {s : State} (hs : MemoriesFit s) :
    InterruptFrame s.cpu.pc (imageNoB s.cpu.p) s.cpu.s (interruptEntry k s) := by
  have hlo : 0xFFFA ≤ (vectorOf k).toNat := by cases k <;> decide
  have hhi : (vectorOf k).toNat < 0xFFFF := by cases k <;> decide
  exact (interruptFrame_enterHandler s.cpu.pc (imageNoB s.cpu.p) hs hlo hhi).setCpu rfl

/-- BRK leaves the address two past its opcode and the status image with B set (R282). -/
theorem interruptFrame_brk {s t : State} (hs : MemoriesFit s) (ht : exec .brk s = .next t) :
    InterruptFrame (s.cpu.pc + 1) (imageWithB s.cpu.p) s.cpu.s t := by
  cases ht
  exact (interruptFrame_enterHandler (v := irqVector) _ _ hs (by decide) (by decide)).setCpu rfl

/-- RTI unwinds the frame (R283). -/
theorem InterruptFrame.rti {ret : Addr} {image sp : Byte} {u : State} (h : InterruptFrame ret image sp u) :
    ∃ v, exec .rti u = .next v ∧ v.cpu.pc = ret ∧ v.cpu.p = pulledStatus image ∧ v.cpu.s = sp := by
  obtain ⟨himage, hret, hsp⟩ := h
  refine ⟨charge 6 (returnFromInterrupt u), rfl, ?_⟩
  rw [returnFromInterrupt_eq, himage, hret, hsp]
  exact ⟨rfl, rfl, rfl⟩

/-- Settles O44: both entries leave a frame, the handler keeps it, and the pull of either image is the register of before. -/
theorem rtiResumes : Obligations.RtiResumes := by
  intro s t u hinv hsp hbytes
  have hs := hinv.memoriesFit
  have hp : s.cpu.Inv := ((state_inv_iff s).1 hinv).1
  refine ⟨fun k hfault hpending ht => ?_, fun ht => ?_⟩
  · have hentry : interruptEntry k s = t := Host.Outcome.next.inj ((cpuStep_entry hfault hpending).symm.trans ht)
    have hframe := hentry ▸ interruptFrame_interruptEntry k hs
    have hback := (hframe.congr hsp hbytes).rti
    rwa [pulledStatus_imageNoB hp] at hback
  · have hback := ((interruptFrame_brk hs ht).congr hsp hbytes).rti
    rwa [pulledStatus_imageWithB hp] at hback

end Sys2Proof.Machine

/-! SUPPORT. The statements of the family 47_ppu_registers: the PPU port seen from the CPU (O50, O51). Every address of
$2000-$3FFF is the register of its last three bits; each register's access is one equation on the PPU's fields. -/

namespace Sys2Proof.Machine

/-! ### The port, by register number (spec/47_ppu_registers.md R320) -/

section Port
variable {s : State} {a : Addr} (hbus : s.cfg.bus = .system) (hlo : 0x2000 ≤ a.toNat) (hhi : a.toNat < 0x4000)
include hbus hlo hhi

/-- Register `r` stands at every address of the range that is `r` modulo 8. -/
theorem access_register (r : BitVec 3) (b : Byte) (hr : a.toNat % 8 = r.toNat) :
    memRead a s = ppuRegRead r s ∧ memWrite a b s = ppuRegWrite r b s :=
  access_port b ((route_ppuPort s.cfg a r).2
    ⟨hbus, hlo, hhi, BitVec.eq_of_toNat_eq ((toNat_setWidth_three a).trans hr)⟩)

theorem memRead_register (r : BitVec 3) (hr : a.toNat % 8 = r.toNat) : memRead a s = ppuRegRead r s :=
  (access_register hbus hlo hhi r 0 hr).1

theorem memWrite_register (r : BitVec 3) (b : Byte) (hr : a.toNat % 8 = r.toNat) : memWrite a b s = ppuRegWrite r b s :=
  (access_register hbus hlo hhi r b hr).2

end Port

/-! ### PPUCTRL, PPUSCROLL and PPUADDR writes, on the fields of `t` (R321, R328, R330) -/

/-- A loopy address from its upper seven bits and its lower byte, the two halves PPUADDR writes (R330). -/
def packAddr (hi : BitVec 7) (lo : Byte) : BitVec 15 := hi ++ lo

theorem packAddr_bit (hi : BitVec 7) (lo : Byte) (i : Nat) :
    (packAddr hi lo).getLsbD i = if i < 8 then lo.getLsbD i else hi.getLsbD (i - 8) := BitVec.getLsbD_append

theorem packAddr_toNat (hi : BitVec 7) (lo : Byte) : (packAddr hi lo).toNat = hi.toNat * 256 + lo.toNat := by
  rw [packAddr, BitVec.toNat_append, Nat.shiftLeft_eq, Nat.mul_comm, ← Nat.two_pow_add_eq_or_of_lt lo.isLt]

section Writes
variable (b : Byte) {u : Ppu}

theorem writeCtrl_eq (u : Ppu) : writeCtrl b u =
    { u with ctrl := b, t := packLoopy (fineY u.t) (b.getLsbD 1) (b.getLsbD 0) (coarseY u.t) (coarseX u.t) } := by
  rw [← writeCtrl_t]
  rfl

theorem writeScroll_first_eq (h : u.w = false) : writeScroll b u =
    { u with
      t := packLoopy (fineY u.t) (ntY u.t) (ntX u.t) (coarseY u.t) (b.extractLsb' 3 5)
      x := b.setWidth 3
      w := true } := by
  rw [← writeScroll_first b u h, writeScroll, if_neg (by simp [h])]

theorem writeScroll_second_eq (h : u.w = true) : writeScroll b u =
    { u with
      t := packLoopy (b.extractLsb' 0 3) (ntY u.t) (ntX u.t) (b.extractLsb' 3 5) (coarseX u.t)
      w := false } := by
  rw [← writeScroll_second b u h, writeScroll, if_pos h]

/-- The upper five bits of a byte, the coarse half of a scroll position. -/
theorem coarseBits_toNat : (b.extractLsb' 3 5).toNat = b.toNat / 8 := by
  rw [BitVec.extractLsb'_toNat, Nat.shiftRight_eq_div_pow]
  omega

/-- The lower three bits of a byte, the fine half of a scroll position. -/
theorem fineBits_toNat : (b.extractLsb' 0 3).toNat = b.toNat % 8 := BitVec.extractLsb'_toNat 0 3 b

theorem writeAddr_first_eq (h : u.w = false) :
    writeAddr b u = { u with t := packAddr ((b.extractLsb' 0 6).setWidth 7) (u.t.setWidth 8), w := true } := by
  have ht : (u.t &&& 0x00FF#15) ||| ((b &&& 0x3F#8).setWidth 15 <<< 8) =
      packAddr ((b.extractLsb' 0 6).setWidth 7) (u.t.setWidth 8) := by
    apply BitVec.eq_of_getLsbD_eq
    intro i hi
    rw [packAddr_bit]
    interval_cases i <;> simp
  rw [writeAddr, if_neg (by simp [h]), ht]

theorem writeAddr_second_eq (h : u.w = true) : writeAddr b u =
    { u with t := packAddr (u.t.extractLsb' 8 7) b, v := packAddr (u.t.extractLsb' 8 7) b, w := false } := by
  have ht : (u.t &&& 0x7F00#15) ||| b.setWidth 15 = packAddr (u.t.extractLsb' 8 7) b := by
    apply BitVec.eq_of_getLsbD_eq
    intro i hi
    rw [packAddr_bit]
    interval_cases i <;> simp
  rw [writeAddr, if_pos h, ht]

theorem packAddr_firstWrite_toNat (t : BitVec 15) :
    (packAddr ((b.extractLsb' 0 6).setWidth 7) (t.setWidth 8)).toNat = b.toNat % 64 * 256 + t.toNat % 256 := by
  rw [packAddr_toNat, BitVec.toNat_setWidth, BitVec.toNat_setWidth, BitVec.extractLsb'_toNat, Nat.shiftRight_zero]
  omega

theorem packAddr_secondWrite_toNat (t : BitVec 15) :
    (packAddr (t.extractLsb' 8 7) b).toNat = t.toNat / 256 * 256 + b.toNat := by
  have := t.isLt
  rw [packAddr_toNat, BitVec.extractLsb'_toNat, Nat.shiftRight_eq_div_pow]
  omega

end Writes

/-! ### PPUSTATUS reads (R323, D21) -/

theorem statusValue_bit (u : Ppu) {n : Nat} (hn : n < 8) :
    (statusValue u).getLsbD n = if 5 ≤ n then u.status.getLsbD n else u.bufferData.getLsbD n := by
  interval_cases n <;> simp [statusValue]

/-! ### PPUDATA: the address and the move of `v` (R329, R332, R333) -/

theorem dataAddr_toNat (u : Ppu) : (dataAddr u).toNat = u.v.toNat % 0x4000 := by
  have := u.v.isLt
  rw [dataAddr, ppuAddr_toNat, BitVec.toNat_setWidth]
  omega

theorem dataAddr_eq (u : Ppu) : dataAddr u = BitVec.ofNat 16 (u.v.toNat % 0x4000) := by
  rw [← dataAddr_toNat, BitVec.ofNat_toNat, BitVec.setWidth_eq]

theorem vramIncrement_toNat (u : Ppu) :
    (vramIncrement u).toNat = (u.v.toNat + if u.ctrl.getLsbD 2 then 32 else 1) % 32768 := by
  rw [vramIncrement, BitVec.toNat_add]
  split <;> rfl

/-- A write to the PPU's space changes neither `v` nor its increment. -/
theorem vramIncrement_ppuWrite (a : Addr) (b : Byte) (s : State) :
    vramIncrement (ppuWrite a b s).ppu = vramIncrement s.ppu := by
  unfold ppuWrite
  dsimp only
  split
  · split <;> rfl
  · split <;> rfl

theorem readData_eq (s : State) : readData s =
    (if 0x3F00 ≤ s.ppu.v.toNat % 0x4000 then ppuRead (dataAddr s.ppu) s else s.ppu.bufferData,
      s.setPpu { s.ppu with bufferData := ppuRead (dataAddr s.ppu) s, v := vramIncrement s.ppu }) := by
  rw [← dataAddr_toNat]
  rfl

theorem writeData_eq (b : Byte) (s : State) : writeData b s = (ppuWrite (dataAddr s.ppu) b s).setPpu
    { (ppuWrite (dataAddr s.ppu) b s).ppu with v := vramIncrement s.ppu } := by
  rw [← vramIncrement_ppuWrite (dataAddr s.ppu) b s]
  rfl

/-- Settles O50, register by register; PPUSCROLL and PPUADDR by the toggle. -/
theorem ppuPortWritesAndOamRead : Obligations.PpuPortWritesAndOamRead := by
  intro s a b hbus hlo hhi u
  have hread := memRead_register hbus hlo hhi
  have hwrite := fun r => memWrite_register hbus hlo hhi r b
  refine ⟨hwrite 1, hwrite 3, fun h => ⟨hread 4 h, hwrite 4 h⟩, fun h => ?_, fun h => ?_, fun h => ?_⟩
  · have hscroll : memWrite a b s = s.setPpu (writeScroll b u) := hwrite 5 h
    rw [hscroll]
    cases hw : u.w with
    | false =>
      refine ⟨_, _, congrArg s.setPpu (writeScroll_first_eq b hw), by simp, by simp, fun _ => ?_, nofun⟩
      exact ⟨by rw [coarseX_packLoopy, coarseBits_toNat], BitVec.toNat_setWidth 3 b, by simp, by simp⟩
    | true =>
      refine ⟨_, _, congrArg s.setPpu (writeScroll_second_eq b hw), by simp, by simp, nofun, fun _ => ?_⟩
      exact ⟨by rw [coarseY_packLoopy, coarseBits_toNat], by rw [fineY_packLoopy, fineBits_toNat], by simp, rfl⟩
  · have haddr : memWrite a b s = s.setPpu (writeAddr b u) := hwrite 6 h
    rw [haddr]
    cases hw : u.w with
    | false =>
      exact ⟨_, _, congrArg s.setPpu (writeAddr_first_eq b hw),
        fun _ => ⟨packAddr_firstWrite_toNat b u.t, rfl⟩, nofun⟩
    | true =>
      exact ⟨_, _, congrArg s.setPpu (writeAddr_second_eq b hw), nofun,
        fun _ => ⟨packAddr_secondWrite_toNat b u.t, rfl⟩⟩
  · have hdata : memWrite a b s = writeData b s := hwrite 7 h
    rw [← dataAddr_eq]
    exact ⟨_, vramIncrement_toNat u, hdata.trans (writeData_eq b s)⟩

/-- Settles O51, register by register. -/
theorem ppuPortControlAndReads : Obligations.PpuPortControlAndReads := by
  intro s a b hbus hlo hhi u
  have hread := memRead_register hbus hlo hhi
  have hwrite := fun r => memWrite_register hbus hlo hhi r b
  refine ⟨fun h => ?_, fun h => ?_, fun h => ?_, fun h => ?_⟩
  · have hctrl : memWrite a b s = s.setPpu (writeCtrl b u) := hwrite 0 h
    refine ⟨_, hctrl.trans (congrArg s.setPpu (writeCtrl_eq b u)), ?_⟩
    simp
  · exact ⟨hwrite 2 h, statusValue u, fun n hn => statusValue_bit u hn, hread 2 h⟩
  · rcases h with h | h | h | h | h
    · exact hread 0 h
    · exact hread 1 h
    · exact hread 3 h
    · exact hread 5 h
    · exact hread 6 h
  · have hdata : memRead a s = readData s := hread 7 h
    rw [← dataAddr_eq]
    exact ⟨_, vramIncrement_toNat u, hdata.trans (readData_eq s)⟩

end Sys2Proof.Machine

/-! SUPPORT. The statements of the family 48_ppu_dot_machine: the length of a frame (O56), the flags and the NMI (O54), the
gate (O55), the pixel (O57), the fetches (O58) and the scroll updates (O59). The position comes first, as every step moves
it; then step 4 of the dot on the state the dot starts from, since it sees nothing of what the steps before it write. -/

namespace Sys2Proof.Machine

/-! ### The position under a step (spec/48_ppu_dot_machine.md R354, R355) -/

/-- The fields that `Advance()` writes. -/
def Ppu.position (u : Ppu) : Nat × Nat × Nat × Bool := (u.scanline, u.dot, u.frame, u.oddFrame)

theorem SameDotState.position {u v : Ppu} (h : SameDotState u v) : v.position = u.position := by
  obtain ⟨hline, hdot, hframe, hodd, -⟩ := h
  rw [Ppu.position, hline, hdot, hframe, hodd, Ppu.position]

/-- Bus accesses and updates of the CPU leave the configuration and the position. -/
theorem BusChain.cfg_position {s t : State} (h : BusChain s t) : t.cfg = s.cfg ∧ t.ppu.position = s.ppu.position := by
  have haccess {u v : State} (hu : u.cfg = s.cfg ∧ u.ppu.position = s.ppu.position) (he : OnlyBusEffects u v) :
      v.cfg = s.cfg ∧ v.ppu.position = s.ppu.position := by
    obtain ⟨hcfg, -, hdot, -⟩ := he
    exact ⟨hcfg.trans hu.1, hdot.position.trans hu.2⟩
  induction h with
  | refl => exact ⟨rfl, rfl⟩
  | read a _ ih => exact haccess ih (memRead_effects a _).bus
  | write a b _ ih => exact haccess ih (memWrite_effects a b _)
  | cpu _ hu ih =>
    rw [hu]
    exact ih

theorem ppuTick_position_eq (s : State) :
    (ppuTick s).ppu.position = (advance (rendering s.ppu) s.ppu).position := by
  obtain ⟨hline, hdot, hframe, hodd⟩ := ppuTick_position s
  rw [Ppu.position, hline, hdot, hframe, hodd, Ppu.position]

/-- Every step of the block goes on and moves the position as `Advance()` does, whatever its CPU tick runs. -/
theorem step_position {s : State} (hbus : s.cfg.bus = .system) :
    ∃ t, step s = .next t ∧ t.cfg = s.cfg ∧ t.ppu.position = (advance (rendering s.ppu) s.ppu).position := by
  rw [← ppuTick_position_eq, ← ppuTick_cfg s]
  cases hturn : cpuTurn s with
  | false => exact ⟨_, step_dotOnly hturn, rfl, rfl⟩
  | true =>
    obtain ⟨u, hu, hchain⟩ := cpuTick_chain (ppuTick s)
    refine ⟨countTick u, ?_, hchain.cfg_position⟩
    rw [step_cpuTurn hturn, cpuSees, finishStep, hbus]
    exact congrArg (mapNext countTick) hu

theorem advance_range (rend : Bool) {u : Ppu} (hline : u.scanline ≤ 261) (hdot : u.dot ≤ 340) :
    (advance rend u).scanline ≤ 261 ∧ (advance rend u).dot ≤ 340 := by
  unfold advance
  split
  · exact ⟨Nat.zero_le _, Nat.zero_le _⟩
  · split
    · split
      · exact ⟨Nat.zero_le _, Nat.zero_le _⟩
      · exact ⟨by show u.scanline + 1 ≤ 261; omega, Nat.zero_le _⟩
    · exact ⟨hline, by show u.dot + 1 ≤ 340; omega⟩

/-- The range of the position is kept by the dot, and by the CPU tick of either bus. -/
theorem step_range {s t : State} (hline : s.ppu.scanline ≤ 261) (hdot : s.ppu.dot ≤ 340) (ht : step s = .next t) :
    t.ppu.scanline ≤ 261 ∧ t.ppu.dot ≤ 340 := by
  refine step_keeps (P := fun s => s.ppu.scanline ≤ 261 ∧ s.ppu.dot ≤ 340) (fun s hs => ?_) (fun s t hs ht => ?_)
    (fun _ hs => hs) ⟨hline, hdot⟩ ht
  · obtain ⟨eline, edot, -⟩ := ppuTick_position s
    rw [eline, edot]
    exact advance_range _ hs.1 hs.2
  · obtain ⟨u, hu, hchain⟩ := cpuTick_chain s
    rw [hu] at ht
    cases ht
    have hpos := hchain.cfg_position.2
    simp only [Ppu.position, Prod.mk.injEq] at hpos
    rwa [hpos.1, hpos.2.1]

/-! ### A frame (R355) -/

/-- The position is the `n`-th dot, counted line after line, of frame `f` with parity `odd`. -/
def AtDot (n f : Nat) (odd : Bool) (u : Ppu) : Prop := u.position = (n / 341, n % 341, f, odd)

/-- Before the last two dots of a frame, `Advance()` goes to the next dot of the same frame. -/
theorem AtDot.advance {n f : Nat} {odd : Bool} {u : Ppu} (h : AtDot n f odd u) (hn : n < 89340) (rend : Bool) :
    AtDot (n + 1) f odd (advance rend u) := by
  simp only [AtDot, Ppu.position, Prod.mk.injEq] at h ⊢
  obtain ⟨hline, hdot, hframe, hodd⟩ := h
  unfold Machine.advance
  rw [if_neg (by omega)]
  split
  · rw [if_neg (by omega)]
    exact ⟨by show u.scanline + 1 = _; omega, by show 0 = _; omega, hframe, hodd⟩
  · exact ⟨by show u.scanline = _; omega, by show u.dot + 1 = _; omega, hframe, hodd⟩

/-- On an odd frame with rendering enabled, dot (261, 339) ends the frame. -/
theorem AtDot.advance_skips {f : Nat} {odd rend : Bool} {u : Ppu} (h : AtDot 89340 f odd u)
    (hskip : odd = true ∧ rend = true) : AtDot 0 (f + 1) (!odd) (Machine.advance rend u) := by
  simp only [AtDot, Ppu.position, Prod.mk.injEq] at h ⊢
  obtain ⟨hline, hdot, rfl, rfl⟩ := h
  rw [Machine.advance, if_pos ⟨hline, hdot, hskip⟩]
  exact ⟨rfl, rfl, rfl, rfl⟩

/-- Otherwise dot (261, 340) follows it. -/
theorem AtDot.advance_stays {f : Nat} {odd rend : Bool} {u : Ppu} (h : AtDot 89340 f odd u)
    (hskip : ¬ (odd = true ∧ rend = true)) : AtDot 89341 f odd (Machine.advance rend u) := by
  simp only [AtDot, Ppu.position, Prod.mk.injEq] at h ⊢
  obtain ⟨hline, hdot, rfl, rfl⟩ := h
  rw [Machine.advance, if_neg fun hlast => hskip hlast.2.2, if_neg (by omega)]
  exact ⟨hline, congrArg (· + 1) hdot, rfl, rfl⟩

/-- Dot (261, 340) ends every frame that has it. -/
theorem AtDot.advance_wraps {f : Nat} {odd : Bool} {u : Ppu} (h : AtDot 89341 f odd u) (rend : Bool) :
    AtDot 0 (f + 1) (!odd) (Machine.advance rend u) := by
  simp only [AtDot, Ppu.position, Prod.mk.injEq] at h ⊢
  obtain ⟨hline, hdot, rfl, rfl⟩ := h
  rw [Machine.advance, if_neg (by omega), if_pos (by omega), if_pos (by omega)]
  exact ⟨rfl, rfl, rfl, rfl⟩

theorem step_atDot {s : State} {n f : Nat} {odd : Bool} (hbus : s.cfg.bus = .system)
    (h : AtDot n f odd (advance (rendering s.ppu) s.ppu)) :
    ∃ t, step s = .next t ∧ t.cfg.bus = .system ∧ AtDot n f odd t.ppu := by
  obtain ⟨t, ht, hcfg, hpos⟩ := step_position hbus
  exact ⟨t, ht, hcfg ▸ hbus, hpos.trans h⟩

/-- One more step at the end of a run. -/
theorem run_snoc {M : Host.Core} {n : Nat} {s t u : M.State} (ht : M.run n s = .next t) (hu : M.step t = .next u) :
    M.run (n + 1) s = .next u := by
  rw [run_add ht, run_succ hu, run_zero]

/-- From (0, 0), `n` steps reach the `n`-th dot of the frame. -/
theorem run_atDot {s : State} {f : Nat} {odd : Bool} (hbus : s.cfg.bus = .system) (h : AtDot 0 f odd s.ppu) {n : Nat}
    (hn : n ≤ 89340) :
    ∃ t : State, Host.Core.run core n s = .next t ∧ t.cfg.bus = .system ∧ AtDot n f odd t.ppu := by
  induction n with
  | zero => exact ⟨s, rfl, hbus, h⟩
  | succ n ih =>
    obtain ⟨t, ht, htbus, htdot⟩ := ih (by omega)
    obtain ⟨u, hu, hubus, hudot⟩ := step_atDot htbus (htdot.advance (by omega) _)
    exact ⟨u, run_snoc ht hu, hubus, hudot⟩

theorem rendering_iff (u : Ppu) : rendering u = true ↔ u.mask &&& 0x18 ≠ 0 := bne_iff_ne

/-- From (261, 339), the frame ends in one step or in two. -/
theorem run_lastDots {s u : State} {n f : Nat} {odd : Bool} (hrun : Host.Core.run core n s = .next u)
    (hbus : u.cfg.bus = .system) (h : AtDot 89340 f odd u.ppu) :
    ∃ t : State, Host.Core.run core (if odd = true ∧ u.ppu.mask &&& 0x18 ≠ 0 then n + 1 else n + 2) s = .next t ∧
      AtDot 0 (f + 1) (!odd) t.ppu := by
  split
  · next hskip =>
    obtain ⟨t, ht, -, htdot⟩ := step_atDot hbus (h.advance_skips (hskip.imp_right (rendering_iff _).2))
    exact ⟨t, run_snoc hrun ht, htdot⟩
  · next hskip =>
    obtain ⟨t, ht, htbus, htdot⟩ := step_atDot hbus (h.advance_stays (hskip ∘ And.imp_right (rendering_iff _).1))
    obtain ⟨v, hv, -, hvdot⟩ := step_atDot htbus (htdot.advance_wraps _)
    exact ⟨v, run_snoc (run_snoc hrun ht) hv, hvdot⟩

/-- Settles O56: the run to dot 89340 by induction on the steps, the end of the frame by its last two dots. -/
theorem frameLength : Obligations.FrameLength := by
  refine ⟨fun s hbus hline hdot => ?_, fun s t hline hdot => step_range hline hdot⟩
  have hstart : AtDot 0 s.ppu.frame s.ppu.oddFrame s.ppu := by
    rw [AtDot, Ppu.position, hline, hdot]
  obtain ⟨u, hrun, hubus, hu⟩ := run_atDot hbus hstart (n := 89340) (le_refl _)
  obtain ⟨t, hrun', ht⟩ := run_lastDots hrun hubus hu
  simp only [AtDot, Ppu.position, Prod.mk.injEq] at hu ht
  obtain ⟨huline, hudot, huframe, huodd⟩ := hu
  rw [← huodd] at hrun'
  exact ⟨u, hrun, huline, hudot, huframe, huodd, t, hrun', ht⟩

/-! ### The flag events (R352, R353) -/

/-- At every dot but (241, 1) and (261, 1) nothing happens to the status and the interrupt slot. -/
theorem flagEvents_elsewhere {sl d : Nat} (h : ¬ (d = 1 ∧ (sl = 241 ∨ sl = 261))) (s : State) :
    flagEvents sl d s = s := by
  unfold flagEvents prerenderLine
  simp only [← Bool.decide_and]
  rw [decide_eq_false (p := sl = 261 ∧ d = 1) (by omega), decide_eq_false (p := sl = 241 ∧ d = 1) (by omega)]
  rfl

theorem startVblank_pending (s : State) :
    (startVblank s).cpu.pending = if s.ppu.ctrl.getLsbD 7 then some .nmi else s.cpu.pending := by
  unfold startVblank triggerNmi
  dsimp only
  split <;> rfl

/-- Settles O54: the status and the interrupt slot after a dot are those of its flag events. -/
theorem statusChangesAtTwoDots : Obligations.StatusChangesAtTwoDots := by
  intro s
  dsimp only
  rw [ppuTick_status, ppuTick_pending]
  refine ⟨fun hline hdot => ?_, fun hline hdot => ?_, fun h => ?_⟩
  · rw [hline, hdot]
    exact ⟨startVblank_status s, startVblank_pending s⟩
  · rw [hline, hdot]
    exact ⟨rfl, rfl⟩
  · rw [flagEvents_elsewhere h]
    exact ⟨rfl, rfl⟩

/-! ### Step 4 of a dot does not see what steps 1 to 3 write (R350) -/

/-- `s` with another status, frame buffer and interrupt slot: what steps 1 to 3 of a dot write. -/
def State.withOutputs (st : Byte) (fb : Memory 6) (k : Option Interrupt) (s : State) : State :=
  (s.setPpu { s.ppu with status := st, framebuffer := fb }).setPending k

theorem pixelEvent_flagEvents_eq (sl d : Nat) (s : State) :
    ∃ st fb k, pixelEvent sl d (flagEvents sl d s) = s.withOutputs st fb k := by
  obtain ⟨fb, hpixel⟩ := pixelEvent_eq sl d (flagEvents sl d s)
  refine ⟨(flagEvents sl d s).ppu.status, fb, (flagEvents sl d s).cpu.pending, hpixel.trans ?_⟩
  conv_lhs => rw [flagEvents_eq]
  rfl

section Outputs
variable (st : Byte) (fb : Memory 6) (k : Option Interrupt)

theorem fetchEvent_withOutputs (d : Nat) (s : State) :
    fetchEvent d (s.withOutputs st fb k) = (fetchEvent d s).withOutputs st fb k := by
  unfold fetchEvent fetchStep
  split
  · split <;> rfl
  · rfl

theorem scrollEvents_withOutputs (sl d : Nat) (s : State) :
    scrollEvents sl d (s.withOutputs st fb k) = (scrollEvents sl d s).withOutputs st fb k := by
  have hv : (scrollEvents sl d (s.withOutputs st fb k)).ppu.v = (scrollEvents sl d s).ppu.v := by
    rw [scrollEvents_v, scrollEvents_v]
    rfl
  obtain ⟨v, h⟩ := scrollEvents_eq sl d s
  obtain ⟨v', h'⟩ := scrollEvents_eq sl d (s.withOutputs st fb k)
  rw [h, h'] at hv ⊢
  cases hv
  rfl

theorem renderEvents_withOutputs (rend : Bool) (sl d : Nat) (s : State) :
    renderEvents rend sl d (s.withOutputs st fb k) = (renderEvents rend sl d s).withOutputs st fb k := by
  unfold renderEvents
  rw [fetchEvent_withOutputs, scrollEvents_withOutputs]
  split <;> rfl

end Outputs

/-- Step 4 of the dot of `s`, taken alone. -/
def renderPart (s : State) : State := renderEvents (rendering s.ppu) s.ppu.scanline s.ppu.dot s

/-- `u'` is `u` but for the status, the frame buffer and the position. -/
def SamePipeline (u u' : Ppu) : Prop :=
  u' = { u with
    status := u'.status, framebuffer := u'.framebuffer, scanline := u'.scanline, dot := u'.dot, frame := u'.frame
    oddFrame := u'.oddFrame }

/-- The pipeline and the scroll after a dot are those of its step 4, taken alone. -/
theorem ppuTick_renderPart (s : State) : SamePipeline (renderPart s).ppu (ppuTick s).ppu := by
  obtain ⟨st, fb, k, h⟩ := pixelEvent_flagEvents_eq s.ppu.scanline s.ppu.dot s
  unfold ppuTick SamePipeline
  dsimp only
  rw [h, renderEvents_withOutputs, State.setPpu_ppu, advance_eq]
  rfl

/-! ### The gate of step 4 (R350, R351) -/

/-- A visible or the pre-render line, with rendering enabled. -/
def RenderedLine (u : Ppu) : Prop := (u.scanline ≤ 239 ∨ u.scanline = 261) ∧ u.mask &&& 0x18 ≠ 0

theorem renderedLine_iff (u : Ppu) :
    ((visibleLine u.scanline || prerenderLine u.scanline) && rendering u) = true ↔ RenderedLine u := by
  simp only [visibleLine, prerenderLine, Bool.and_eq_true, Bool.or_eq_true, decide_eq_true_eq, rendering_iff,
    RenderedLine]

theorem renderPart_dark {s : State} (h : ¬ RenderedLine s.ppu) : renderPart s = s := by
  rw [renderPart, renderEvents, if_neg (h ∘ (renderedLine_iff _).1)]

theorem renderPart_rendered {s : State} (h : RenderedLine s.ppu) :
    renderPart s = scrollEvents s.ppu.scanline s.ppu.dot (fetchEvent s.ppu.dot s) := by
  rw [renderPart, renderEvents, if_pos ((renderedLine_iff _).2 h)]

/-- Settles O55: with rendering disabled step 4 does nothing. -/
theorem renderingOffKeepsThePipeline : Obligations.RenderingOffKeepsThePipeline := by
  intro s hmask
  have hpipeline := ppuTick_renderPart s
  rwa [renderPart_dark fun h => h.2 hmask] at hpipeline

/-! ### The pixel (R370 to R372) -/

theorem shifterBits_eq (hi lo : BitVec 16) (bit : Nat) :
    shifterBits hi lo bit = BitVec.ofNat 2 (2 * (hi.getLsbD bit).toNat + (lo.getLsbD bit).toNat) := by
  unfold shifterBits
  cases hi.getLsbD bit <;> cases lo.getLsbD bit <;> rfl

/-- The palette address of the pixel as a number; the backdrop is the address of selector 0 and value 0. -/
theorem pixelAddr_eq (u : Ppu) : let bit := 15 - u.x.toNat
    pixelAddr u = BitVec.ofNat 16 (0x3F00 +
      4 * (if u.mask.getLsbD 3 then 2 * (u.attrHi.getLsbD bit).toNat + (u.attrLo.getLsbD bit).toNat else 0) +
      if u.mask.getLsbD 3 then 2 * (u.patHi.getLsbD bit).toNat + (u.patLo.getLsbD bit).toNat else 0) := by
  unfold pixelAddr
  dsimp only
  cases u.mask.getLsbD 3 with
  | false => rfl
  | true =>
    simp only [if_true, shifterBits_eq]
    generalize u.attrHi.getLsbD _ = ah, u.attrLo.getLsbD _ = al, u.patHi.getLsbD _ = ph, u.patLo.getLsbD _ = pl
    revert ah al ph pl
    decide

theorem pixelAddr_palette (u : Ppu) : 0x3F00 ≤ (pixelAddr u).toNat % 0x4000 := by
  have hbits (b c : Bool) : 2 * b.toNat + c.toNat ≤ 3 := by cases b <;> cases c <;> decide
  rw [pixelAddr_eq, BitVec.toNat_ofNat]
  have hattr := hbits (u.attrHi.getLsbD (15 - u.x.toNat)) (u.attrLo.getLsbD (15 - u.x.toNat))
  have hpat := hbits (u.patHi.getLsbD (15 - u.x.toNat)) (u.patLo.getLsbD (15 - u.x.toNat))
  split <;> omega

/-- The colour is that of the palette entry at the pixel's address. -/
theorem pixelColour_eq (s : State) : pixelColour s.ppu =
    (if s.ppu.mask.getLsbD 0 then ppuRead (pixelAddr s.ppu) s &&& 0x30 else ppuRead (pixelAddr s.ppu) s).setWidth 6 := by
  rw [ppuRead_palette s (pixelAddr_palette _)]
  rfl

theorem pixelEvent_visible {sl d : Nat} (h : sl ≤ 239 ∧ 1 ≤ d ∧ d ≤ 256) (s : State) :
    pixelEvent sl d s = producePixel sl d s := by
  rw [pixelEvent, if_pos]
  simpa only [visibleLine, Bool.and_eq_true, decide_eq_true_eq, and_assoc] using h

theorem pixelEvent_elsewhere {sl d : Nat} (h : ¬ (sl ≤ 239 ∧ 1 ≤ d ∧ d ≤ 256)) (s : State) :
    pixelEvent sl d s = s := by
  rw [pixelEvent, if_neg]
  simpa only [visibleLine, Bool.and_eq_true, decide_eq_true_eq, and_assoc] using h

/-- Settles O57: the frame buffer after a dot is that of its pixel. -/
theorem pixelProduction : Obligations.PixelProduction := by
  intro s hs
  obtain ⟨-, ⟨-, -, -, -, -, -, -, -, hframe⟩, -⟩ := ((state_inv_iff s).1 hs).2
  intro u d bit p pal byte visible k
  rw [ppuTick_framebuffer]
  by_cases hvisible : visible
  · rw [pixelEvent_visible hvisible]
    refine (Memory.read_write _ _ _ (Memory.wf_of_fits hframe)).trans ?_
    rw [pixelColour_eq, pixelAddr_eq]
    simp only [hvisible, true_and]
    rfl
  · rw [pixelEvent_elsewhere hvisible, if_neg fun h => hvisible h.1]

/-! ### What each place in a group of eight does (R359 to R366) -/

theorem fetchDot_iff (d : Nat) : fetchDot d = true ↔ 1 ≤ d ∧ d ≤ 256 ∨ 321 ≤ d ∧ d ≤ 336 := by
  simp only [fetchDot, Bool.or_eq_true, Bool.and_eq_true, decide_eq_true_eq]

/-- Each staging byte has one place at which it is fetched. -/
theorem fetchStep_staging (k : Nat) (s : State) : let u := (fetchStep k s).ppu
    u.nextTileId = (if k = 1 then ppuRead (nametableAddr s.ppu.v) s else s.ppu.nextTileId) ∧
    u.nextTileAttr = (if k = 3 then attributeBits s.ppu.v (ppuRead (attributeAddr s.ppu.v) s)
      else s.ppu.nextTileAttr) ∧
    u.nextTileLsb = (if k = 5 then ppuRead (patternAddr s.ppu) s else s.ppu.nextTileLsb) ∧
    u.nextTileMsb = if k = 7 then ppuRead (patternAddr s.ppu + 8) s else s.ppu.nextTileMsb := by
  unfold fetchStep
  split
  case h_6 h1 h3 h5 h7 _ => exact ⟨(if_neg h1).symm, (if_neg h3).symm, (if_neg h5).symm, (if_neg h7).symm⟩
  all_goals exact ⟨rfl, rfl, rfl, rfl⟩

/-- The four shifters, low and high plane of the pattern, then of the palette selector. -/
def Ppu.shifters (u : Ppu) : BitVec 16 × BitVec 16 × BitVec 16 × BitVec 16 := (u.patLo, u.patHi, u.attrLo, u.attrHi)

/-- The last place loads the shifters and increments coarse X; the others leave both. -/
theorem fetchStep_shifters_v (k : Nat) (s : State) :
    (k = 0 → (fetchStep k s).ppu.shifters = (loadShifters s.ppu).shifters ∧ (fetchStep k s).ppu.v = incX s.ppu.v) ∧
    (k ≠ 0 → (fetchStep k s).ppu.shifters = s.ppu.shifters ∧ (fetchStep k s).ppu.v = s.ppu.v) := by
  refine ⟨?_, fun h => ?_⟩
  · rintro rfl
    exact ⟨rfl, rfl⟩
  · unfold fetchStep
    split
    case h_5 => exact absurd rfl h
    all_goals exact ⟨rfl, rfl⟩

/-! ### The fetches of a tick -/

/-- `u'` is `u` but for `v`, the status, the frame buffer and the position. -/
def SameFetches (u u' : Ppu) : Prop :=
  u' = { u with
    v := u'.v, status := u'.status, framebuffer := u'.framebuffer, scanline := u'.scanline, dot := u'.dot
    frame := u'.frame, oddFrame := u'.oddFrame }

/-- Dots 1 to 256 and 321 to 336 of a rendered line. Reducible, so that it is decided by its parts. -/
@[reducible] def Fetches (u : Ppu) : Prop :=
  (u.scanline ≤ 239 ∨ u.scanline = 261) ∧ u.mask &&& 0x18 ≠ 0 ∧ (1 ≤ u.dot ∧ u.dot ≤ 256 ∨ 321 ≤ u.dot ∧ u.dot ≤ 336)

theorem fetches_iff (u : Ppu) : Fetches u ↔ RenderedLine u ∧ fetchDot u.dot = true := by
  rw [fetchDot_iff, RenderedLine, and_assoc, Fetches]

/-- The shift of a fetch dot, then the work of its place in the group of eight. -/
def fetchPart (s : State) : State := fetchStep (s.ppu.dot % 8) (s.setPpu (shiftShifters s.ppu))

theorem fetchEvent_fetchDot {s : State} (h : fetchDot s.ppu.dot = true) : fetchEvent s.ppu.dot s = fetchPart s := by
  rw [fetchEvent, if_pos h, fetchPart]

theorem fetchEvent_elsewhere {d : Nat} (h : fetchDot d ≠ true) (s : State) : fetchEvent d s = s := by
  rw [fetchEvent, if_neg h]

theorem SamePipeline.sameFetches {u w u' : Ppu} (h : SamePipeline w u') (hw : ∃ v, w = { u with v := v }) :
    SameFetches u u' := by
  obtain ⟨v, rfl⟩ := hw
  unfold SamePipeline at h
  unfold SameFetches
  rw [h]

/-- On a rendered line the scroll updates leave what the fetches wrote. -/
theorem ppuTick_fetchEvent {s : State} (h : RenderedLine s.ppu) :
    SameFetches (fetchEvent s.ppu.dot s).ppu (ppuTick s).ppu := by
  obtain ⟨v, hv⟩ := scrollEvents_eq s.ppu.scanline s.ppu.dot (fetchEvent s.ppu.dot s)
  refine (ppuTick_renderPart s).sameFetches ⟨v, ?_⟩
  rw [renderPart_rendered h, hv]
  rfl

theorem ppuTick_fetches {s : State} (h : Fetches s.ppu) : SameFetches (fetchPart s).ppu (ppuTick s).ppu := by
  obtain ⟨hline, hdot⟩ := (fetches_iff _).1 h
  rw [← fetchEvent_fetchDot hdot]
  exact ppuTick_fetchEvent hline

theorem ppuTick_not_fetches {s : State} (h : ¬ Fetches s.ppu) : SameFetches s.ppu (ppuTick s).ppu := by
  by_cases hline : RenderedLine s.ppu
  · have hfetch := ppuTick_fetchEvent hline
    rwa [fetchEvent_elsewhere fun hdot => h ((fetches_iff _).2 ⟨hline, hdot⟩)] at hfetch
  · exact (ppuTick_renderPart s).sameFetches ⟨s.ppu.v, congrArg State.ppu (renderPart_dark hline)⟩

theorem SameFetches.shifters {u u' : Ppu} (h : SameFetches u u') : u'.shifters = u.shifters := by
  rw [h]
  rfl

theorem SameFetches.staging {u u' : Ppu} (h : SameFetches u u') :
    u'.nextTileId = u.nextTileId ∧ u'.nextTileAttr = u.nextTileAttr ∧ u'.nextTileLsb = u.nextTileLsb ∧
      u'.nextTileMsb = u.nextTileMsb := by
  rw [h]
  exact ⟨rfl, rfl, rfl, rfl⟩

/-- The staging bytes after a dot. -/
theorem ppuTick_staging (s : State) : let u := s.ppu
    let t := (ppuTick s).ppu
    t.nextTileId = (if Fetches u ∧ u.dot % 8 = 1 then ppuRead (nametableAddr u.v) s else u.nextTileId) ∧
    t.nextTileAttr = (if Fetches u ∧ u.dot % 8 = 3 then attributeBits u.v (ppuRead (attributeAddr u.v) s)
      else u.nextTileAttr) ∧
    t.nextTileLsb = (if Fetches u ∧ u.dot % 8 = 5 then ppuRead (patternAddr u) s else u.nextTileLsb) ∧
    t.nextTileMsb = if Fetches u ∧ u.dot % 8 = 7 then ppuRead (patternAddr u + 8) s else u.nextTileMsb := by
  dsimp only
  by_cases h : Fetches s.ppu
  · obtain ⟨hid, hattr, hlsb, hmsb⟩ := (ppuTick_fetches h).staging
    obtain ⟨hid', hattr', hlsb', hmsb'⟩ := fetchStep_staging (s.ppu.dot % 8) (s.setPpu (shiftShifters s.ppu))
    simp only [and_iff_right h]
    exact ⟨hid.trans hid', hattr.trans hattr', hlsb.trans hlsb', hmsb.trans hmsb'⟩
  · have hno (k : Nat) : ¬ (Fetches s.ppu ∧ s.ppu.dot % 8 = k) := fun hk => h hk.1
    simp only [hno, if_false]
    exact (ppuTick_not_fetches h).staging

/-! ### The addresses and the values of the fetches as numbers (R362 to R366) -/

/-- A concatenation as a number. -/
theorem append_toNat {m n : Nat} (x : BitVec m) (y : BitVec n) : (x ++ y).toNat = x.toNat * 2 ^ n + y.toNat := by
  rw [BitVec.toNat_append, Nat.shiftLeft_eq, Nat.mul_comm, ← Nat.two_pow_add_eq_or_of_lt y.isLt]

theorem nametableAddr_eq (v : BitVec 15) : nametableAddr v = BitVec.ofNat 16 (0x2000 + v.toNat % 0x1000) := by
  have h : nametableAddr v = 2#4 ++ v.setWidth 12 := by
    apply BitVec.eq_of_getLsbD_eq
    intro i hi
    rw [nametableAddr, BitVec.getLsbD_append]
    interval_cases i <;> simp
  rw [h, ← BitVec.toNat_inj, append_toNat, BitVec.toNat_setWidth, BitVec.toNat_ofNat, BitVec.toNat_ofNat]
  omega

theorem attributeAddr_eq (v : BitVec 15) : attributeAddr v = BitVec.ofNat 16 (0x23C0 + 0x800 * (ntY v).toNat +
    0x400 * (ntX v).toNat + 8 * ((coarseY v).toNat / 4) + (coarseX v).toNat / 4) := by
  have h : attributeAddr v = (2#4 ++ BitVec.ofBool (ntY v) ++ BitVec.ofBool (ntX v) ++ 15#4 ++
      (coarseY v).extractLsb' 2 3 ++ (coarseX v).extractLsb' 2 3 : BitVec (4 + 1 + 1 + 4 + 3 + 3)) := by
    apply BitVec.eq_of_getLsbD_eq
    intro i hi
    simp only [attributeAddr, BitVec.getLsbD_append]
    interval_cases i <;> simp [ntY, ntX, coarseX, coarseY]
  have hy := (coarseY v).isLt
  have hx := (coarseX v).isLt
  have hny := (ntY v).toNat_le
  have hnx := (ntX v).toNat_le
  rw [h, ← BitVec.toNat_inj]
  simp only [append_toNat, BitVec.extractLsb'_toNat, Nat.shiftRight_eq_div_pow, BitVec.toNat_ofBool, BitVec.toNat_ofNat]
  omega

theorem patternAddr_eq (u : Ppu) : patternAddr u = BitVec.ofNat 16 ((if u.ctrl.getLsbD 4 then 0x1000 else 0) +
    (16 * u.nextTileId.toNat + (fineY u.v).toNat)) := by
  have hid := u.nextTileId.isLt
  have hfine := (fineY u.v).isLt
  rw [patternAddr, ← BitVec.toNat_inj]
  split <;> simp only [BitVec.toNat_add, BitVec.toNat_shiftLeft, BitVec.toNat_setWidth, BitVec.toNat_ofNat,
    Nat.shiftLeft_eq] <;> omega

/-- The palette selector is the pair of bits of the tile's quadrant. -/
theorem attributeBits_toNat (v : BitVec 15) (b : Byte) : (attributeBits v b).toNat =
    b.toNat / 2 ^ (4 * ((coarseY v).toNat / 2 % 2) + 2 * ((coarseX v).toNat / 2 % 2)) % 4 := by
  have hbit (c : BitVec 5) : c.toNat / 2 % 2 = (c.getLsbD 1).toNat := (Nat.toNat_testBit c.toNat 1).symm
  have hlow (x : Byte) : (x &&& 3).toNat = x.toNat % 4 := Nat.and_two_pow_sub_one_eq_mod x.toNat 2
  rw [hbit, hbit, attributeBits, hlow]
  cases (coarseY v).getLsbD 1 <;> cases (coarseX v).getLsbD 1 <;>
    simp [Nat.shiftRight_eq_div_pow]

/-- A shifter with its low half loaded. -/
theorem loadLow_toNat (r : BitVec 16) (b : Byte) :
    ((r &&& 0xFF00#16) ||| b.setWidth 16).toNat = r.toNat / 256 * 256 + b.toNat := by
  have h : (r &&& 0xFF00#16) ||| b.setWidth 16 = r.extractLsb' 8 8 ++ b := by
    apply BitVec.eq_of_getLsbD_eq
    intro i hi
    rw [BitVec.getLsbD_append]
    interval_cases i <;> simp
  have hr := r.isLt
  rw [h, append_toNat, BitVec.extractLsb'_toNat, Nat.shiftRight_eq_div_pow]
  omega

theorem fillByte_eq (b : Bool) : fillByte b = (if b then 0xFF#8 else 0).setWidth 16 := by cases b <;> rfl

theorem shifter_shiftLeft_one_toNat (r : BitVec 16) : (r <<< 1).toNat = r.toNat * 2 % 65536 := by
  rw [BitVec.toNat_shiftLeft, Nat.shiftLeft_eq]

/-- The shifters after the shift and the load. -/
theorem loadShifters_shiftShifters_toNat (u : Ppu) : let t := loadShifters (shiftShifters u)
    t.patLo.toNat = u.patLo.toNat * 2 % 65536 / 256 * 256 + u.nextTileLsb.toNat ∧
    t.patHi.toNat = u.patHi.toNat * 2 % 65536 / 256 * 256 + u.nextTileMsb.toNat ∧
    t.attrLo.toNat = u.attrLo.toNat * 2 % 65536 / 256 * 256 + (if u.nextTileAttr.getLsbD 0 then 255 else 0) ∧
    t.attrHi.toNat = u.attrHi.toNat * 2 % 65536 / 256 * 256 + (if u.nextTileAttr.getLsbD 1 then 255 else 0) := by
  have hfill (b : Bool) : (if b then 0xFF#8 else 0).toNat = if b then 255 else 0 := by cases b <;> rfl
  simp only [loadShifters, shiftShifters, fillByte_eq, loadLow_toNat, shifter_shiftLeft_one_toNat, hfill, and_self]

/-! ### Every change of `v` (R359, R366 to R369) -/

/-- `IncX()` as a packing, the switch of the nametable as an exclusive or. -/
theorem incX_eq_bne (v : BitVec 15) : incX v = packLoopy (fineY v) (ntY v)
    (ntX v != decide ((coarseX v).toNat = 31)) (coarseY v) (coarseX v + 1) := by
  have h31 : coarseX v = 31 ↔ (coarseX v).toNat = 31 := BitVec.toNat_inj.symm
  rw [incX_eq]
  by_cases h : coarseX v = 31
  · rw [if_pos h, decide_eq_true (h31.1 h), Bool.bne_true]
  · rw [if_neg h, decide_eq_false (h ∘ h31.2), Bool.bne_false]

theorem fetchEvent_cfg (d : Nat) (s : State) : (fetchEvent d s).cfg = s.cfg := by
  rw [(fetchEvent_effects d s).1]
  rfl

theorem scrollLine_congr {s t : State} (h : t.cfg = s.cfg) (sl : Nat) : scrollLine sl t = scrollLine sl s := by
  rw [scrollLine, h, scrollLine]

theorem ppuTick_v (s : State) : (ppuTick s).ppu.v = (renderPart s).ppu.v := by
  rw [ppuTick_renderPart s]

/-- What the fetches do to `v`: coarse X is incremented at the end of a group of eight. -/
theorem fetchEvent_v (s : State) : (fetchEvent s.ppu.dot s).ppu.v =
    if fetchDot s.ppu.dot = true ∧ s.ppu.dot % 8 = 0 then incX s.ppu.v else s.ppu.v := by
  obtain ⟨hend, hinside⟩ := fetchStep_shifters_v (s.ppu.dot % 8) (s.setPpu (shiftShifters s.ppu))
  by_cases hdot : fetchDot s.ppu.dot = true
  · rw [fetchEvent_fetchDot hdot]
    split
    · next h => exact (hend h.2).2
    · next h => exact (hinside fun hk => h ⟨hdot, hk⟩).2
  · rw [fetchEvent_elsewhere hdot, if_neg fun h => hdot h.1]

/-- `v` after a dot of a rendered line. -/
theorem ppuTick_v_rendered {s : State} (h : RenderedLine s.ppu) : (ppuTick s).ppu.v =
    if s.ppu.dot = 256 then (if scrollLine s.ppu.scanline s then incY (incX s.ppu.v) else incX s.ppu.v)
    else if s.ppu.dot = 257 then (if scrollLine s.ppu.scanline s then copyX s.ppu else s.ppu.v)
    else if s.ppu.scanline = 261 ∧ 280 ≤ s.ppu.dot ∧ s.ppu.dot ≤ 304 then copyY s.ppu
    else if fetchDot s.ppu.dot = true ∧ s.ppu.dot % 8 = 0 then incX s.ppu.v else s.ppu.v := by
  rw [ppuTick_v, renderPart_rendered h, scrollEvents_v, scrollLine_congr (fetchEvent_cfg _ s)]
  by_cases h256 : s.ppu.dot = 256
  · have hfetch : (fetchEvent s.ppu.dot s).ppu.v = incX s.ppu.v := by
      rw [fetchEvent_v, if_pos]
      rw [h256]
      decide
    rw [if_pos h256, if_pos h256, hfetch]
  · rw [if_neg h256, if_neg h256]
    have hstill (hno : s.ppu.dot = 257 ∨ 280 ≤ s.ppu.dot ∧ s.ppu.dot ≤ 304) : fetchEvent s.ppu.dot s = s :=
      fetchEvent_elsewhere (by rw [ne_eq, fetchDot_iff]; omega) s
    by_cases h257 : s.ppu.dot = 257
    · rw [if_pos h257, if_pos h257, hstill (.inl h257)]
    · rw [if_neg h257, if_neg h257]
      by_cases hcopy : s.ppu.scanline = 261 ∧ 280 ≤ s.ppu.dot ∧ s.ppu.dot ≤ 304
      · rw [if_pos hcopy, if_pos hcopy, hstill (.inr hcopy.2)]
      · rw [if_neg hcopy, if_neg hcopy, fetchEvent_v]

theorem ppuTick_v_dot256 {s : State} (h : RenderedLine s.ppu) (hdot : s.ppu.dot = 256) :
    (ppuTick s).ppu.v = if scrollLine s.ppu.scanline s then incY (incX s.ppu.v) else incX s.ppu.v := by
  rw [ppuTick_v_rendered h, if_pos hdot]

theorem ppuTick_v_dot257 {s : State} (h : RenderedLine s.ppu) (hdot : s.ppu.dot = 257) :
    (ppuTick s).ppu.v = if scrollLine s.ppu.scanline s then copyX s.ppu else s.ppu.v := by
  rw [ppuTick_v_rendered h, if_neg (by omega), if_pos hdot]

theorem ppuTick_v_copyY {s : State} (h : RenderedLine s.ppu)
    (hdot : s.ppu.scanline = 261 ∧ 280 ≤ s.ppu.dot ∧ s.ppu.dot ≤ 304) : (ppuTick s).ppu.v = copyY s.ppu := by
  rw [ppuTick_v_rendered h, if_neg (by omega), if_neg (by omega), if_pos hdot]

theorem ppuTick_v_dark {s : State} (h : ¬ RenderedLine s.ppu) : (ppuTick s).ppu.v = s.ppu.v := by
  rw [ppuTick_v, renderPart_dark h]

/-- Inside the fetch dots `v` changes at the end of a group of eight; dot 256 adds the increment of Y. -/
theorem ppuTick_v_fetches {s : State} (h : Fetches s.ppu) (h256 : s.ppu.dot ≠ 256) :
    (ppuTick s).ppu.v = if s.ppu.dot % 8 = 0 then incX s.ppu.v else s.ppu.v := by
  obtain ⟨hline, hdot⟩ := (fetches_iff _).1 h
  have hrange := (fetchDot_iff _).1 hdot
  rw [ppuTick_v_rendered hline, if_neg h256, if_neg (by omega), if_neg (by omega)]
  simp only [hdot, true_and]

/-- Settles O58: the staging bytes, the shifters and `v` by the place in the group, the rest by what no dot changes. -/
theorem fetchPipeline : Obligations.FetchPipeline := by
  intro s u t d base row attr quadrant fetches
  obtain ⟨hid, hattr, hlsb, hmsb⟩ := ppuTick_staging s
  refine ⟨ppuTick_ppu s, fun h => ?_, fun h => hid.trans (if_neg h), fun h => hattr.trans (if_neg h),
    fun h => hlsb.trans (if_neg h), fun h => hmsb.trans (if_neg h), fun h => ?_⟩
  · simpa only [Ppu.shifters, Prod.mk.injEq] using (ppuTick_not_fetches h).shifters
  · obtain ⟨hend, hinside⟩ := fetchStep_shifters_v (d % 8) (s.setPpu (shiftShifters s.ppu))
    have hshifters := (ppuTick_fetches h).shifters
    refine ⟨fun hk => ?_, fun hk => ?_, fun hk => ?_, fun hk => ?_, fun hk => ?_, fun hk => ?_⟩
    · rw [← nametableAddr_eq]
      exact hid.trans (if_pos ⟨h, hk⟩)
    · rw [hattr, if_pos ⟨h, hk⟩, attributeBits_toNat, attributeAddr_eq]
    · exact hlsb.trans ((if_pos ⟨h, hk⟩).trans (by rw [patternAddr_eq]))
    · refine hmsb.trans ((if_pos ⟨h, hk⟩).trans ?_)
      rw [patternAddr_eq, BitVec.ofNat_add _ 8]
      rfl
    · have hloaded := hshifters.trans (hinside hk).1
      simp only [Ppu.shifters, Prod.mk.injEq] at hloaded
      obtain ⟨hpatLo, hpatHi, hattrLo, hattrHi⟩ := hloaded
      have hv := (ppuTick_v_fetches h fun h256 => hk (congrArg (· % 8) h256)).trans (if_neg hk)
      exact ⟨hpatLo, hpatHi, hattrLo, hattrHi, hv⟩
    · have hloaded := hshifters.trans (hend hk).1
      simp only [Ppu.shifters, Prod.mk.injEq] at hloaded
      obtain ⟨hpatLo, hpatHi, hattrLo, hattrHi⟩ := hloaded
      obtain ⟨epatLo, epatHi, eattrLo, eattrHi⟩ := loadShifters_shiftShifters_toNat u
      refine ⟨(congrArg _ hpatLo).trans epatLo, (congrArg _ hpatHi).trans epatHi, (congrArg _ hattrLo).trans eattrLo,
        (congrArg _ hattrHi).trans eattrHi, fun h256 => ?_⟩
      rw [← incX_eq_bne]
      exact (ppuTick_v_fetches h h256).trans (if_pos hk)

/-! ### The scroll updates (R367 to R369, D38) -/

theorem scrollLine_iff (sl : Nat) (s : State) :
    scrollLine sl s = true ↔ sl ≤ 239 ∨ s.cfg.prerenderScrollUpdates = true := by
  rw [scrollLine, Bool.or_eq_true, visibleLine, decide_eq_true_eq]

/-- `IncY()` after `IncX()`, field by field, as numbers. -/
theorem incY_incX_fields (v : BitVec 15) : let w := incY (incX v)
    (fineY w).toNat = ((fineY v).toNat + 1) % 8 ∧ coarseX w = coarseX v + 1 ∧
    ntX w = (ntX v != decide ((coarseX v).toNat = 31)) ∧
    (coarseY w).toNat = (if (fineY v).toNat < 7 then (coarseY v).toNat
      else if (coarseY v).toNat = 29 ∨ (coarseY v).toNat = 31 then 0 else (coarseY v).toNat + 1) ∧
    ntY w = (ntY v != decide ((fineY v).toNat = 7 ∧ (coarseY v).toNat = 29)) := by
  have h7 : fineY v = 7 ↔ (fineY v).toNat = 7 := BitVec.toNat_inj.symm
  have h29 : coarseY v = 29 ↔ (coarseY v).toNat = 29 := BitVec.toNat_inj.symm
  have h31 : coarseY v = 31 ↔ (coarseY v).toNat = 31 := BitVec.toNat_inj.symm
  have hfine := (fineY v).isLt
  have hcoarse := (coarseY v).isLt
  simp only [incY_eq, incX_eq_bne, fineY_packLoopy, ntY_packLoopy, ntX_packLoopy, coarseY_packLoopy, coarseX_packLoopy,
    h7, h29, h31, ne_eq, true_and]
  refine ⟨BitVec.toNat_add _ _, ?_, ?_⟩
  · by_cases hf : (fineY v).toNat = 7
    · rw [if_neg (not_not_intro hf), if_neg (show ¬ (fineY v).toNat < 7 by omega)]
      split
      · rfl
      · rw [BitVec.toNat_add]
        exact Nat.mod_eq_of_lt (show (coarseY v).toNat + 1 < 32 by omega)
    · rw [if_pos hf, if_pos (show (fineY v).toNat < 7 by omega)]
  · split
    · next h => rw [decide_eq_true h, Bool.bne_true]
    · next h => rw [decide_eq_false h, Bool.bne_false]

/-- Settles O59, by the equation of `v` after a dot. -/
theorem scrollUpdates : Obligations.ScrollUpdates := by
  intro s u t line groupEnd
  have hline (hrendered : u.scanline ≤ 239 ∨ u.scanline = 261) : scrollLine u.scanline s = true ↔ line := by
    rw [scrollLine_iff]
    exact ⟨fun h => h.elim .inl fun hpre => hrendered.imp_right (⟨·, hpre⟩), .imp_right And.right⟩
  refine ⟨fun h => ?_, fun hmask => ?_⟩
  · by_cases hrend : RenderedLine u
    · have hevents := not_and.1 h hrend.2
      simp only [not_or] at hevents
      obtain ⟨hgroup, hcopyX, hcopyY⟩ := hevents
      have hend : ¬ (fetchDot u.dot = true ∧ u.dot % 8 = 0) := fun hend =>
        hgroup ⟨hrend.1, hend.2, (fetchDot_iff _).1 hend.1⟩
      refine (ppuTick_v_rendered hrend).trans ?_
      rw [if_neg fun h256 => hend (by rw [h256]; decide), if_neg hcopyY, if_neg hend]
      split
      · next h257 => exact if_neg fun hscroll => hcopyX ⟨(hline hrend.1).1 hscroll, h257⟩
      · rfl
    · exact ppuTick_v_dark hrend
  · have hrendered : line → u.scanline ≤ 239 ∨ u.scanline = 261 := .imp_right And.left
    refine ⟨fun hl h256 => ?_, fun hl h257 => ?_, fun hl hpre h256 => ?_, fun hl hpre h257 => ?_,
      fun hpre hlo hhi => ?_⟩
    · have ht : t.v = incY (incX u.v) := (ppuTick_v_dot256 ⟨hrendered hl, hmask⟩ h256).trans
        (if_pos ((hline (hrendered hl)).2 hl))
      rw [ht]
      exact incY_incX_fields u.v
    · rw [← copyX_eq]
      exact (ppuTick_v_dot257 ⟨hrendered hl, hmask⟩ h257).trans (if_pos ((hline (hrendered hl)).2 hl))
    · rw [← incX_eq_bne]
      exact (ppuTick_v_dot256 ⟨.inr hpre, hmask⟩ h256).trans (if_neg (hl ∘ (hline (.inr hpre)).1))
    · exact (ppuTick_v_dot257 ⟨.inr hpre, hmask⟩ h257).trans (if_neg (hl ∘ (hline (.inr hpre)).1))
    · rw [← copyY_eq]
      exact ppuTick_v_copyY ⟨.inr hpre, hmask⟩ ⟨hpre, hlo, hhi⟩

end Sys2Proof.Machine

/-! SUPPORT. The statements of the family 49_bus_clock_dma: the CPU ticks of the bus clock (O8) and the payment of a
debt (O9). A tick that executes nothing and a run of such ticks have one description, `Idled`, which composes. -/

namespace Sys2Proof.Machine

/-! ### Ticks in which the CPU executes nothing (spec/49_bus_clock_dma.md R390, R392) -/

/-- `t` is `s` after `n` bus ticks that execute nothing and leave the debt at `d`: only the PPU and the count went on,
and the slot may have come to hold an NMI. -/
def Idled (n d : Nat) (s t : State) : Prop :=
  ∃ (u : Ppu) (k : Option Interrupt),
    t = (((s.setPpu u).setPending k).setCycles d).setTickCount (s.tickCount + n) ∧
      (k = s.cpu.pending ∨ k = some .nmi)

theorem Idled.refl (s : State) : Idled 0 s.cpu.cycles s s := ⟨s.ppu, s.cpu.pending, rfl, .inl rfl⟩

theorem Idled.trans {m n d e : Nat} {s t v : State} (h : Idled m d s t) (h' : Idled n e t v) : Idled (m + n) e s v := by
  obtain ⟨u, k, rfl, hk⟩ := h
  obtain ⟨u', k', rfl, hk'⟩ := h'
  refine ⟨u', k', ?_, ?_⟩
  · rw [← Nat.add_assoc]
    rfl
  · exact hk'.elim (fun hkept => hkept ▸ hk) .inr

theorem Idled.keeps {n d : Nat} {s t : State} (h : Idled n d s t) :
    t.cfg = s.cfg ∧ t.cpu.fault = s.cpu.fault ∧ t.cpu.cycles = d ∧ t.tickCount = s.tickCount + n := by
  obtain ⟨u, k, rfl, -⟩ := h
  exact ⟨rfl, rfl, rfl, rfl⟩

/-- A dot, the debt set to `d`, and the count. -/
theorem idled_dot (s : State) (d : Nat) : Idled 1 d s (countTick ((ppuTick s).setCycles d)) := by
  obtain ⟨u, k, hdot, hk⟩ := ppuTick_effects s
  rw [hdot]
  exact ⟨u, k, rfl, hk⟩

section SystemBus
variable {s : State} (hbus : s.cfg.bus = .system)
include hbus

theorem cpuTurn_system : cpuTurn s = decide (s.tickCount % 3 = 0) := by
  rw [cpuTurn, hbus]

theorem step_idle_offTurn (hcount : s.tickCount % 3 ≠ 0) : ∃ t, step s = .next t ∧ Idled 1 s.cpu.cycles s t := by
  have hturn : cpuTurn s = false := by rw [cpuTurn_system hbus, decide_eq_false hcount]
  exact ⟨_, step_dotOnly hturn, ppuTick_cycles s ▸ idled_dot s (ppuTick s).cpu.cycles⟩

theorem step_idle_inDebt (hcount : s.tickCount % 3 = 0) (hfault : s.cpu.fault = none) (hdebt : 0 < s.cpu.cycles) :
    ∃ t, step s = .next t ∧ Idled 1 (s.cpu.cycles - 1) s t := by
  have hturn : cpuTurn s = true := by rw [cpuTurn_system hbus, decide_eq_true hcount]
  have htick : cpuTick (ppuTick s) = .next ((ppuTick s).setCycles (s.cpu.cycles - 1)) := by
    rw [cpuTick_inDebt ((ppuTick_fault s).trans hfault) ((ppuTick_cycles s).symm ▸ hdebt), ppuTick_cycles]
  refine ⟨_, ?_, idled_dot s _⟩
  rw [step_cpuTurn hturn, cpuSees, finishStep, hbus]
  exact congrArg (mapNext countTick) htick

/-- From a CPU tick, three bus ticks pay one cycle and end at the next CPU tick. -/
theorem run_three_inDebt (hcount : s.tickCount % 3 = 0) (hfault : s.cpu.fault = none) (hdebt : 0 < s.cpu.cycles) :
    ∃ t : State, Host.Core.run core 3 s = .next t ∧ Idled 3 (s.cpu.cycles - 1) s t := by
  obtain ⟨t₁, hstep₁, h₁⟩ := step_idle_inDebt hbus hcount hfault hdebt
  obtain ⟨hcfg₁, -, hcycles₁, hcount₁⟩ := h₁.keeps
  obtain ⟨t₂, hstep₂, h₂⟩ := step_idle_offTurn (hcfg₁ ▸ hbus) (by omega)
  obtain ⟨hcfg₂, -, hcycles₂, hcount₂⟩ := h₂.keeps
  obtain ⟨t₃, hstep₃, h₃⟩ := step_idle_offTurn (hcfg₂ ▸ hcfg₁ ▸ hbus) (by omega)
  rw [hcycles₂, hcycles₁] at h₃
  exact ⟨t₃, run_snoc (run_snoc (run_snoc rfl hstep₁) hstep₂) hstep₃, (h₁.trans h₂).trans h₃⟩

end SystemBus

/-- From a CPU tick, a debt of `d` is paid in `3 d` idle bus ticks. -/
theorem run_debt {d : Nat} {s : State} (hbus : s.cfg.bus = .system) (hcount : s.tickCount % 3 = 0)
    (hfault : s.cpu.fault = none) (hdebt : s.cpu.cycles = d) :
    ∃ t : State, Host.Core.run core (3 * d) s = .next t ∧ Idled (3 * d) 0 s t := by
  induction d generalizing s with
  | zero =>
    have hidle := Idled.refl s
    rw [hdebt] at hidle
    exact ⟨s, rfl, hidle⟩
  | succ d ih =>
    obtain ⟨t, hrun, hidle⟩ := run_three_inDebt hbus hcount hfault (by omega)
    obtain ⟨hcfg, hfault', hcycles, hcount'⟩ := hidle.keeps
    obtain ⟨v, hrun', hidle'⟩ := ih (hcfg ▸ hbus) (by omega) (hfault'.trans hfault) (by omega)
    rw [Nat.mul_succ, Nat.add_comm]
    exact ⟨v, (run_add hrun).trans hrun', hidle.trans hidle'⟩

/-- Settles O8, by the two ways a bus tick can be idle. -/
theorem cpuTicksEveryThirdBusTick : Obligations.CpuTicksEveryThirdBusTick := by
  intro s hbus
  refine ⟨fun hcount => ?_, fun hcount hfault hdebt => ?_⟩
  · obtain ⟨t, hstep, u, k, rfl, hk⟩ := step_idle_offTurn hbus hcount
    exact ⟨u, k, hstep, hk⟩
  · obtain ⟨t, hstep, u, k, rfl, hk⟩ := step_idle_inDebt hbus hcount hfault hdebt
    exact ⟨u, k, hstep, hk⟩

/-- Settles O9, by induction over the debt, three bus ticks at a time. -/
theorem debtIsPaidInThreeTicksPerCycle : Obligations.DebtIsPaidInThreeTicksPerCycle := by
  intro s hbus hcount hfault
  obtain ⟨t, hrun, u, k, rfl, hk⟩ := run_debt hbus hcount hfault rfl
  exact ⟨u, k, hrun, hk⟩

end Sys2Proof.Machine

/-! SUPPORT. The statements of the family 60_exceptions: the fault of an illegal byte (O6), a CPU with a fault recorded
(O7), that nothing ends (O10), the triggers of NMI and IRQ (O43). -/

namespace Sys2Proof.Machine

/-! ### The one exception (spec/60_exceptions.md R410, R411) -/

theorem lengthOf_of_illegal {op : Byte} (h : instrOf op 0 0 = none) : lengthOf op = 1 := by
  rw [lengthOf, h]

/-- An illegal byte is fetched alone and recorded (R410). -/
theorem runInstruction_illegal {s : State} (h : instrOf (memRead s.cpu.pc s).1 0 0 = none) :
    runInstruction s = .next (raiseInvalid (memRead s.cpu.pc s).1 s.cpu.pc (memRead s.cpu.pc s).2) := by
  rw [runInstruction, fetch_one (lengthOf_of_illegal h)]
  simp only [h]

/-- Settles O6: the CPU tick of the step runs an instruction, and the byte it fetches is illegal. -/
theorem illegalByteRaisesInvalidInstruction : Obligations.IllegalByteRaisesInvalidInstruction := by
  intro s u r0 ⟨hturn, hfault, hcycles, hpending⟩ hillegal
  rw [step_cpuTurn hturn, cpuTick_runs hfault hcycles hpending, runInstruction_illegal hillegal]
  rfl

theorem cpuStep_faulted {s : State} (h : s.cpu.fault ≠ none) : cpuStep s = .next s := by
  rw [cpuStep, if_pos (Option.isSome_iff_ne_none.2 h)]

/-- With or without a CPU tick in it, a bus tick of a faulted CPU is the dot and the count. -/
theorem step_faulted {s : State} (hbus : s.cfg.bus = .system) (h : s.cpu.fault ≠ none) :
    step s = .next (countTick (ppuTick s)) := by
  cases hturn : cpuTurn s with
  | false => exact step_dotOnly hturn
  | true =>
    have htick : cpuTick (ppuTick s) = .next (ppuTick s) := cpuTick_faulted ((ppuTick_fault s).symm ▸ h)
    rw [step_cpuTurn hturn, cpuSees, finishStep, hbus]
    exact congrArg (mapNext countTick) htick

/-- Settles O7: the step of the stand-alone CPU is the CPU tick, that of the block has the dot and the count besides. -/
theorem faultedCpuIsInert : Obligations.FaultedCpuIsInert := by
  intro s h
  exact ⟨cpuTick_faulted h, cpuStep_faulted h, fun hbus => (step_flat hbus).trans (cpuTick_faulted h),
    fun hbus => ⟨step_faulted hbus h, ppuTick_fault s⟩⟩

theorem finishStep_goesOn (s t : State) : ∃ u, finishStep s (.next t) = .next u := by
  unfold finishStep
  split
  · exact ⟨countTick t, rfl⟩
  · exact ⟨t, rfl⟩

/-- A step is a dot and the count, or it has a CPU tick, which goes on. -/
theorem step_goesOn (s : State) : ∃ t, step s = .next t := by
  cases hturn : cpuTurn s with
  | false => exact ⟨_, step_dotOnly hturn⟩
  | true =>
    obtain ⟨t, htick, -⟩ := cpuTick_chain (cpuSees s)
    rw [step_cpuTurn hturn, htick]
    exact finishStep_goesOn s t

/-- Settles O10: `exec_chain` for the instructions, `step_goesOn` for the steps. -/
theorem everyStepGoesOn : Obligations.EveryStepGoesOn :=
  ⟨fun i s => (exec_chain i s).imp fun _ => And.left, step_goesOn⟩

/-! ### Triggers (spec/60_exceptions.md R412 to R414) -/

theorem triggerIrq_masked {s : State} (h : flagOf .i s.cpu.p = true) : triggerIrq s = s := if_pos h

theorem triggerIrq_behindNmi {s : State} (h : s.cpu.pending = some .nmi) : triggerIrq s = s := by
  rw [triggerIrq, if_pos h, ite_self]

theorem triggerIrq_taken {s : State} (hmask : flagOf .i s.cpu.p = false) (hslot : s.cpu.pending ≠ some .nmi) :
    triggerIrq s = s.setPending (some .irq) := by
  rw [triggerIrq, State.flag, if_neg (Bool.eq_false_iff.1 hmask), if_neg hslot]

/-- Settles O43: an NMI takes the slot whatever it holds, and an IRQ behind it is dropped. -/
theorem interruptTriggers : Obligations.InterruptTriggers := by
  intro s
  have hnmi : (triggerNmi s).cpu.pending = some .nmi := rfl
  exact ⟨rfl, triggerIrq_masked, triggerIrq_taken, triggerIrq_behindNmi, rfl,
    (triggerIrq_behindNmi hnmi).symm ▸ hnmi⟩

end Sys2Proof.Machine

/-! SUPPORT. The statements of the family 70_reset_and_hazards, the reset (O45), and the registers each instruction keeps
(O30). The registers follow the access classes: an operation changes those of its row, every bus access keeps all four. -/

namespace Sys2Proof.Machine

/-! ### Reset (spec/70_reset_and_hazards.md R441 to R443) -/

/-- The status after a reset: I and U set, every other flag kept (R441). -/
theorem resetStatus_flags (p : Byte) : let q := putFlag .u true (putFlag .i true p)
    flagOf .i q = true ∧ flagOf .u q = true ∧ SameFlagsBut [.i, .u] p q := by
  refine ⟨?_, flagOf_putFlag_same _ _ _, ((SameFlagsBut.rfl' _ p).putFlag _ (by decide)).putFlag _ (by decide)⟩
  rw [flagOf_putFlag_other (by decide), flagOf_putFlag_same]

/-- Settles O45: the CPU's reset by `cpuReset_eq`, the system reset by its definition. -/
theorem resetClears : Obligations.ResetClears := by
  intro s
  obtain ⟨hi, hu, hflags⟩ := resetStatus_flags s.cpu.p
  exact ⟨⟨_, hi, hu, hflags, cpuReset_eq s⟩, rfl⟩

/-! ### The registers A, X, Y, S under the shared operations -/

/-- Of the registers A, X, Y, S only the listed ones may differ. -/
def SameRegsBut (rs : List Reg) (s t : State) : Prop := ∀ r, r ∉ rs → regOf r t.cpu = regOf r s.cpu

theorem SameRegsBut.trans {rs : List Reg} {s t u : State} (h : SameRegsBut rs s t) (h' : SameRegsBut rs t u) :
    SameRegsBut rs s u := fun r hr => (h' r hr).trans (h r hr)

theorem SameRegsBut.mono {rs rs' : List Reg} {s t : State} (h : SameRegsBut rs s t) (hsub : rs ⊆ rs') :
    SameRegsBut rs' s t := fun r hr => h r fun hmem => hr (hsub hmem)

/-- The CPU `d` with every register outside `rs` as in `c`. -/
def restoreRegs (rs : List Reg) (c d : Cpu) : Cpu :=
  { d with
    a := if .a ∈ rs then d.a else c.a
    x := if .x ∈ rs then d.x else c.x
    y := if .y ∈ rs then d.y else c.y
    s := if .s ∈ rs then d.s else c.s }

/-- Where restoring the registers outside `rs` changes nothing, they were kept. -/
theorem SameRegsBut.of_restore {rs : List Reg} {s t : State} (h : t.cpu = restoreRegs rs s.cpu t.cpu) :
    SameRegsBut rs s t := by
  intro r hr
  rw [h]
  cases r <;> exact if_neg hr

/-- A bus access keeps all four registers. -/
theorem OnlyBusEffects.sameRegs {s t : State} (h : OnlyBusEffects s t) (rs : List Reg) : SameRegsBut rs s t := by
  obtain ⟨-, hcpu, -⟩ := h
  intro r _
  rw [hcpu]
  cases r <;> rfl

/-- The end of an instruction moves `PC` and charges the cycles. -/
theorem SameRegsBut.concluded {rs : List Reg} {s t : State} (h : SameRegsBut rs s t) (i : Instr) (crossed : Bool) :
    SameRegsBut rs s (concluded i crossed t) := fun r hr => Eq.trans (by cases r <;> rfl) (h r hr)

theorem push_sameRegs (b : Byte) (s : State) : SameRegsBut [.s] s (push b s) :=
  ((memWrite_effects _ b s).sameRegs _).trans (.of_restore rfl)

theorem push16_sameRegs (w : Addr) (s : State) : SameRegsBut [.s] s (push16 w s) :=
  (push_sameRegs _ s).trans (push_sameRegs _ _)

theorem pop_sameRegs (s : State) : SameRegsBut [.s] s (pop s).2 := by
  rw [pop_peek]
  exact .of_restore rfl

theorem pop16_sameRegs (s : State) : SameRegsBut [.s] s (pop16 s).2 := (pop_sameRegs s).trans (pop_sameRegs _)

theorem jumpThrough_sameRegs (v : Addr) (s : State) (rs : List Reg) : SameRegsBut rs s (jumpThrough v s) := by
  intro r hr
  rw [← (memRead16_effects v s).bus.sameRegs rs r hr]
  cases r <;> rfl

theorem enterHandler_sameRegs (ret : Addr) (image : Byte) (v : Addr) (s : State) :
    SameRegsBut [.s] s (enterHandler ret image v s) := by
  have hpush := (push16_sameRegs ret s).trans (push_sameRegs image _)
  exact SameRegsBut.trans (t := (push image (push16 ret s)).setFlag .i true) (hpush.trans (.of_restore rfl))
    (jumpThrough_sameRegs v _ _)

theorem returnFromInterrupt_sameRegs (s : State) : SameRegsBut [.s] s (returnFromInterrupt s) := by
  rw [returnFromInterrupt_eq]
  exact .of_restore rfl

theorem branchClass_sameRegs {cond : Bool} {off : Int} {s t : State} (h : branchClass cond off s = .next t) :
    SameRegsBut [] s t := by
  cases cond <;> cases h <;> exact .of_restore rfl

/-! ### The registers an instruction keeps (files 41 to 46) -/

theorem adc_sameRegs (m : Byte) (s : State) : SameRegsBut [.a] s (adc m s) := by
  unfold adc addDecimal
  split
  · split <;> exact .of_restore rfl
  · exact .of_restore rfl

theorem sbc_sameRegs (m : Byte) (s : State) : SameRegsBut [.a] s (sbc m s) := by
  unfold sbc subDecimal
  split
  · split <;> exact .of_restore rfl
  · exact .of_restore rfl

/-- The operation of a read-class instruction writes the registers of its row. -/
theorem readOp_sameRegs {n : Mnemonic} {op : Byte → State → State} (h : readOp n = some op) (m : Byte) (s : State) :
    SameRegsBut (regsWritten n) s (op m s) := by
  cases n <;> cases h
  case adc => exact adc_sameRegs m s
  case sbc => exact sbc_sameRegs m s
  all_goals exact .of_restore rfl

/-- What follows the write of a read-modify-write writes the registers of its row. -/
theorem rmwOp_sameRegs {n : Mnemonic} {res : State → Byte → Byte} {fin : Byte → Byte → State → State}
    (h : rmwOp n = some (res, fin)) (old new : Byte) (s : State) : SameRegsBut (regsWritten n) s (fin old new s) := by
  cases n <;> cases h
  case isb => exact sbc_sameRegs new s
  all_goals exact .of_restore rfl

theorem exec_read_sameRegs {i : Instr} {op : Byte → State → State} {s t : State} (h : readOp i.row.mnemonic = some op)
    (ht : exec i s = .next t) : SameRegsBut (regsWritten i.row.mnemonic) s t := by
  obtain ⟨r, hr, hexec⟩ := exec_read i s op h
  rw [hexec] at ht
  cases ht
  exact (((readOperand_effects hr).bus.sameRegs _).trans (readOp_sameRegs h r.value r.st)).concluded i r.crossed

theorem exec_write_sameRegs {i : Instr} {v : State → Byte} {s t : State} (h : writeOp i.row.mnemonic = some v)
    (ht : exec i s = .next t) : SameRegsBut (regsWritten i.row.mnemonic) s t := by
  obtain ⟨o, -, hexec⟩ := exec_write i s v h
  rw [hexec] at ht
  cases ht
  exact ((memWrite_effects _ _ s).sameRegs _).concluded i false

/-- The memory form of a read-modify-write reads and writes through the bus; the accumulator form puts its result into A. -/
theorem exec_rmw_sameRegs {i : Instr} {res : State → Byte → Byte} {fin : Byte → Byte → State → State} {s t : State}
    (h : rmwOp i.row.mnemonic = some (res, fin)) (ht : exec i s = .next t) :
    SameRegsBut (regsWritten i.row.mnemonic) s t ∨
      i.row.mode = .accumulator ∧ SameRegsBut (.a :: regsWritten i.row.mnemonic) s t := by
  rcases rmw_operand i (by rw [h]; rfl) with ho | hacc
  · obtain ⟨o, ho⟩ := Option.isSome_iff_exists.1 ho
    rw [exec_rmw i s o res fin h ho] at ht
    cases ht
    have hread := (readAt_effects o s).bus.sameRegs (regsWritten i.row.mnemonic)
    exact .inl ((hread.trans (((memWrite_effects _ _ _).sameRegs _).trans (rmwOp_sameRegs h _ _ _))).concluded i false)
  · rw [exec_acc i s res fin h hacc] at ht
    cases ht
    have hset (b : Byte) : SameRegsBut [.a] s (s.setA b) := .of_restore rfl
    have hfin := (rmwOp_sameRegs h s.cpu.a (res s s.cpu.a) (s.setA (res s s.cpu.a))).mono (List.subset_cons_self .a _)
    exact .inr ⟨hacc, (((hset _).mono (by simp)).trans hfin).concluded i false⟩

/-- The instructions outside the three access classes: stack, subroutines and interrupts move S, PLA writes A too, the
others write at most one register, by name. -/
theorem exec_other_sameRegs {i : Instr} {s t : State} (hr : readOp i.row.mnemonic = none)
    (hw : writeOp i.row.mnemonic = none) (hm : rmwOp i.row.mnemonic = none) (ht : exec i s = .next t) :
    SameRegsBut (regsWritten i.row.mnemonic) s t := by
  cases i
  case pha | php =>
    cases ht
    exact (push_sameRegs _ s).trans (.of_restore rfl)
  case plp =>
    cases ht
    exact (pop_sameRegs s).trans (.of_restore rfl)
  case pla =>
    cases ht
    rw [pullA, pop_peek]
    exact .of_restore rfl
  case jsr addr =>
    cases ht
    exact (push16_sameRegs _ s).trans (.of_restore rfl)
  case rts =>
    cases ht
    exact (pop16_sameRegs s).trans (.of_restore rfl)
  case brk =>
    cases ht
    exact (enterHandler_sameRegs _ _ _ s).trans (.of_restore rfl)
  case rti =>
    cases ht
    exact (returnFromInterrupt_sameRegs s).trans (.of_restore rfl)
  case jmpInd addr =>
    cases ht
    exact ((resolveIndirect_effects addr s).bus.sameRegs _).trans (.of_restore rfl)
  case bcc off | bcs off | beq off | bne off | bmi off | bpl off | bvc off | bvs off =>
    exact branchClass_sameRegs ht
  all_goals first
    | exact absurd hr (Option.some_ne_none _)
    | exact absurd hw (Option.some_ne_none _)
    | exact absurd hm (Option.some_ne_none _)
    | (cases ht; exact .of_restore rfl)

/-- Settles O30, by access class. -/
theorem registersKeptByOtherInstructions : Obligations.RegistersKeptByOtherInstructions := by
  intro i s t r ht hr hacc
  refine access_cases i.row.mnemonic (fun _ h => exec_read_sameRegs h ht r hr)
    (fun _ h => exec_write_sameRegs h ht r hr) (fun _ _ h => ?_) (fun hn hw hm => exec_other_sameRegs hn hw hm ht r hr)
  rcases exec_rmw_sameRegs h ht with hregs | ⟨hmode, hregs⟩
  · exact hregs r hr
  · exact hregs r (List.not_mem_cons_of_ne_of_not_mem (hacc hmode) hr)

end Sys2Proof.Machine
